-- ==== Sys2Proof/Word.lean ====
section
/-! DEFINITION. The word types of the block: bytes, register indices, the raw ratio, the floating-point
bit pattern, the timer. Widths are those of spec/00_scope.md and spec/30_encoding.md. -/

namespace Sys2Proof

/-- One byte of a transaction or one configuration byte (R6). -/
abbrev Byte := BitVec 8

/-- "a 7-bit register index" (R30). -/
abbrev RegIndex := BitVec 7

/-- RawRatio, a "15-bit unsigned integer in [0, 32767]" (R55). -/
abbrev Ratio := BitVec 15

/-- The 16-bit raw word (R53). -/
abbrev Raw16 := BitVec 16

/-- The 32-bit command word (R57). -/
abbrev CmdWord := BitVec 32

/-- A value of the type `F` as the number of the bit pattern that stands on a port or in a register of `FW`
bits (R57, R121). `FW` goes with the block's `NUM` and is no constant, so the type does not carry it: the
ports cut what is presented to `FW` bits, and the numerics read and write patterns of `FW` bits. -/
abbrev Flt := Nat

/-- The transport's (or the acquire's) error value `e`, a number of `EW` bits. The block passes it on and never
looks at it (R151). `EW` is a parameter (D37), so the type does not carry it: the ports cut what comes in to
`EW` bits. -/
abbrev ErrVal := Nat

/-- `TW`, the width of the delay timer: "the spec's default is 32" (R16). -/
abbrev TW : Nat := 32

/-- The content of the delay timer. -/
abbrev Timer := BitVec TW

end Sys2Proof
end

