-- ==== Sys2Proof/Syntax.lean ====
section
/-! DEFINITION. The syntax: the Configuration record (R11) and one constructor of Instr for each row of
spec/opcode_table.json: fourteen commands, two reserved command rows, four bus transactions, three data
formats. -/

namespace Sys2Proof

/-- wireCount: "1=Three,0=Two/Four" (R11, R51). -/
inductive WireCount where
  | twoFour
  | three
  deriving DecidableEq, Repr, Inhabited

/-- faultDetectionCycle: 0 NoAction, 1 Automatic, 2 RunManual, 3 FinishManual (R11, D18). -/
inductive FaultCycle where
  | noAction
  | automatic
  | runManual
  | finishManual
  deriving DecidableEq, Repr, Inhabited

/-- mainsFilterHz: "1 = alternate/50Hz, 0 = default/60Hz" (R11, R51). -/
inductive MainsFilter where
  | hz60
  | hz50
  deriving DecidableEq, Repr, Inhabited

/-- The Configuration: five fields, 64 values, all of them legal (R11). -/
structure Configuration where
  vbias  : Bool
  auto   : Bool
  wire   : WireCount
  fdc    : FaultCycle
  filter : MainsFilter
  deriving DecidableEq, Repr, Inhabited

/-- One constructor for each row of spec/opcode_table.json. A command carries its integer operand and the
floating-point operands that its rule uses (R57). The last seven are no commands: four transactions of the
request port (R81 to R84) and three data formats (R70, R71, R55). -/
inductive Instr where
  /-- ENCODE c (R70). -/
  | encode (c : Configuration)
  /-- DECODE b (R71). -/
  | decode (b : Byte)
  /-- BEGIN c, Rref, Rnom (R142). -/
  | beginOp (c : Configuration) (rref rnom : Flt)
  /-- END (R143). -/
  | endOp
  /-- SETCONFIG c (R144). -/
  | setConfig (c : Configuration)
  /-- GETCONFIG (R145). -/
  | getConfig
  /-- CLEARFAULT (R110). -/
  | clearFault
  /-- READFAULT (R111). -/
  | readFault
  /-- GETRAW (R90). -/
  | getRaw
  /-- GETTEMP (R97). -/
  | getTemp
  /-- SOLVE ratio, Rref, Rnom (R127). -/
  | solve (ratio : Ratio) (rref rnom : Flt)
  /-- RESIST ratio, Rref (R123). -/
  | resist (ratio : Ratio) (rref : Flt)
  /-- CVD Rrtd, Rnom (R124). -/
  | cvd (rrtd rnom : Flt)
  /-- POLY Rrtd, Rnom (R125). -/
  | poly (rrtd rnom : Flt)
  /-- RESERVED_E: a command word whose OP field is 0xE (R63). -/
  | reservedE (cw : CmdWord)
  /-- RESERVED_F: a command word whose OP field is 0xF (R63). -/
  | reservedF (cw : CmdWord)
  /-- CFG_WR b: the write of the configuration register (R81). -/
  | cfgWr (b : Byte)
  /-- CFG_RD: the read of the configuration register (R82). -/
  | cfgRd
  /-- RTD_RD: the 2-byte read of the raw resistance register (R83). -/
  | rtdRd
  /-- FAULT_RD: the read of the fault-status register (R84). -/
  | faultRd
  /-- CFGBYTE.encode: the data format of the byte that ENCODE produces (R51, R70). -/
  | cfgByteEncode (c : Configuration)
  /-- CFGBYTE.decode: the data format of the byte that DECODE reads (R51, R71). -/
  | cfgByteDecode (b : Byte)
  /-- RAW16: the data format of the word that RTD_RD reads (R53, R55). -/
  | raw16 (w : Raw16)
  deriving DecidableEq, Repr

end Sys2Proof
end

