-- ==== Sys2Proof/Config.lean ====
section
/-! DEFINITION. What an implementation fixes and the spec leaves open, and the free values. Every open
parameter is a constant with no body, or is computed from such constants so that exactly the constraints
that the spec states hold of it; or it is plain data of the type `Params`, which every block carries (`NUM`,
`POLY_C`, `EW`), whose instances and default stand in Machine/Numerics.lean. -/

namespace Sys2Proof

/-- A decimal literal of the document, kept as printed: `± digits * 10 ^ exp10` (R121). -/
structure DecLit where
  neg    : Bool
  digits : Nat
  exp10  : Int
  deriving DecidableEq, Repr

/-- `NUM` (R121): the floating-point operations that the solver uses, over a type `F`. -/
structure Num (F : Type) where
  fadd  : F → F → F
  fsub  : F → F → F
  fmul  : F → F → F
  fdiv  : F → F → F
  fsqrt : F → F
  fneg  : F → F
  fgt   : F → F → Bool
  ofNat : Ratio → F
  lit   : DecLit → F
  deriving Inhabited

/-- `POLY_C[0..5]` (R125), a configuration field (D20). -/
structure PolyC where
  c0 : DecLit
  c1 : DecLit
  c2 : DecLit
  c3 : DecLit
  c4 : DecLit
  c5 : DecLit
  deriving DecidableEq, Repr

/-- Which `NUM` a block is built with (R5, R121, D1): one of the two instances that the spec describes, or any
other, named by a number. -/
inductive NumSel where
  | binary32
  | binary64
  | other (k : Nat)
  deriving DecidableEq, Repr

/-- The configuration of a block (R5): its `NUM`, with which `FW` goes, its `POLY_C`, and `EW`, the width of
an error value. -/
structure Params where
  num   : NumSel
  polyC : PolyC
  ew    : Nat
  deriving DecidableEq, Repr

/-- `FW` of the `k`-th other `NUM`, open. -/
opaque Config.otherFw : Nat → Nat

/-- The `k`-th other `NUM`, of which nothing is assumed but "that each result depends on the operands alone"
(R121). -/
opaque Config.otherNum (k : Nat) : Num (BitVec (Config.otherFw k))

/-- The two delays of the acquisition sequence (R96). -/
inductive DelayKind where
  | bias
  | conv
  deriving DecidableEq, Repr

/-- The answer of the transport, of the acquire or of the release: success, with the bytes a read of up to
two bytes delivers in order of arrival, or failure with an error value (R31, R32, R36, R140). A write, an
acquire and a release use no byte of it, a 1-byte read uses the first. An error value reaches the block
on a port of `EW` bits. -/
inductive Reply where
  | ok (d0 d1 : Byte)
  | err (e : ErrVal)
  deriving DecidableEq, Repr, Inhabited

/-! ## Register addresses (R34, D5): open, pairwise distinct, each in 0..127 -/

/-- `ADDR_CONFIG`, open. -/
opaque Config.addrConfig : RegIndex

/-- Where `ADDR_RTD` lies among the 127 other indices, open. -/
opaque Config.rtdStep : Fin 127

/-- Where `ADDR_FAULT` lies among the 126 indices then left, open. -/
opaque Config.faultStep : Fin 126

/-- `ADDR_RTD`: any index but `ADDR_CONFIG`. -/
def Config.addrRtd : RegIndex :=
  Config.addrConfig + BitVec.ofNat 7 (Config.rtdStep.val + 1)

/-- `ADDR_FAULT`: any index but the two others. -/
def Config.addrFault : RegIndex :=
  Config.addrConfig + BitVec.ofNat 7
    (if Config.faultStep.val < Config.rtdStep.val then Config.faultStep.val + 1
     else Config.faultStep.val + 2)

/-! ## Delay lengths (R96, D7): lower bounds stated, lengths open -/

/-- How far the clock period lies above the shortest period for which a 32-bit timer can hold 65 ms. -/
opaque Config.tclkExtra : Nat

/-- Timer cycles beyond the fewest that reach the bound, open. -/
opaque Config.extraCycles : DelayKind → Nat

/-- `TCLK`, the clock period in picoseconds. -/
def Config.tclk : Nat := 16 + Config.tclkExtra

/-- The lower bound of each delay in picoseconds: 10 ms and 65 ms (R96). -/
def Config.bound : DelayKind → Nat
  | .bias => 10000000000
  | .conv => 65000000000

/-- `BIAS_CYCLES` and `CONV_CYCLES`: at least the bound divided by the period, rounded up, and below
`2 ^ TW`; otherwise open. -/
def Config.cycles (k : DelayKind) : Nat :=
  min (2 ^ TW - 1) ((Config.bound k + Config.tclk - 1) / Config.tclk + Config.extraCycles k)

/-! ## Free values -/

/-- The answer of the `n`-th draw where the environment's script gives none (R36). -/
opaque Config.freeReply : Nat → Reply

/-- `CFG` after a reset: unspecified (R20). -/
opaque Config.freeCfg : Nat → Configuration

/-- `RREF`, a register of `fw` bits, after a reset: unspecified (R20). -/
opaque Config.freeRref (fw : Nat) : Nat → BitVec fw

/-- `RNOM`, a register of `fw` bits, after a reset: unspecified (R20). -/
opaque Config.freeRnom (fw : Nat) : Nat → BitVec fw

end Sys2Proof
end

