-- ==== Sys2Proof/Machine/Ieee.lean ====
section
/-! DEFINITION. IEEE 754 binary arithmetic, correctly rounded, round to nearest ties to even, no traps, no
flags (R121), for any interchange format: an operation computes the exact result as an integer times a
power of two (with a sticky bit where the exact result is no such number) and rounds it once. Encodings
are held as natural numbers here. -/

namespace Sys2Proof.Machine

/-- A binary interchange format: `ew` exponent bits and `mw` fraction bits. -/
structure Format where
  ew : Nat
  mw : Nat
  deriving DecidableEq, Repr

/-- The value of an encoding. `fin neg m e` is `± m * 2 ^ e`; a zero keeps its sign. -/
inductive FloatVal where
  | nan
  | inf (neg : Bool)
  | fin (neg : Bool) (m : Nat) (e : Int)
  deriving DecidableEq, Repr

/-- The exponent of the last place of a subnormal number, the least one of the format. -/
def Format.qmin (f : Format) : Int := 2 - (2 : Int) ^ (f.ew - 1) - f.mw

/-- The encoding of `+inf`, above every finite magnitude. -/
def Format.infBits (f : Format) : Nat := (2 ^ f.ew - 1) * 2 ^ f.mw

/-- The sign as its place in the encoding. -/
def Format.signBits (f : Format) (neg : Bool) : Nat := if neg then 2 ^ (f.ew + f.mw) else 0

/-- The canonical NaN: 0x7FC00000 in binary32. -/
def Format.nanBits (f : Format) : Nat := f.infBits + 2 ^ (f.mw - 1)

/-- Read an encoding. -/
def Format.unpack (f : Format) (bits : Nat) : FloatVal :=
  let frac := bits % 2 ^ f.mw
  let ex := bits / 2 ^ f.mw % 2 ^ f.ew
  let neg := bits / 2 ^ (f.ew + f.mw) % 2 == 1
  if ex = 2 ^ f.ew - 1 then
    if frac = 0 then .inf neg else .nan
  else if ex = 0 then .fin neg frac f.qmin
  else .fin neg (2 ^ f.mw + frac) (f.qmin + (ex - 1 : Nat))

/-- `hi + lo / 2 ^ k` with `lo < 2 ^ k` to the nearest integer, ties to even. `sticky` says that the exact
value lies above `hi + lo / 2 ^ k` by less than one unit of `lo`. -/
def roundNearest (hi lo k : Nat) (sticky : Bool) : Nat :=
  let half := 2 ^ (k - 1)
  if half < lo ∨ (lo = half ∧ (sticky ∨ hi % 2 = 1)) then hi + 1 else hi

/-- The encoding nearest to `± m * 2 ^ e`, ties to even. A magnitude that rounds to `2 ^ (emax + 1)` or more is
infinite. With `sticky` the exact magnitude lies strictly between `m` and `m + 1` units; `m` must then
have at least two bits more than the significand. -/
def Format.round (f : Format) (neg : Bool) (m : Nat) (e : Int) (sticky : Bool) : Nat :=
  if m = 0 then f.signBits neg
  else
    let q := max (e + (Nat.log2 m + 1 : Nat) - (f.mw + 1 : Nat)) f.qmin
    let sig :=
      if q ≤ e then m * 2 ^ (e - q).toNat
      else roundNearest (m / 2 ^ (q - e).toNat) (m % 2 ^ (q - e).toNat) (q - e).toNat sticky
    f.signBits neg + min f.infBits ((q - f.qmin).toNat * 2 ^ f.mw + sig)

/-- The signed integer `± m * 2 ^ e` in units of `2 ^ u`, for `u ≤ e`. -/
def scaled (neg : Bool) (m : Nat) (e u : Int) : Int :=
  let v : Int := (m * 2 ^ (e - u).toNat : Nat)
  if neg then -v else v

/-- Flip the sign bit. -/
def Format.neg (f : Format) (a : Nat) : Nat :=
  if a / 2 ^ (f.ew + f.mw) % 2 = 1 then a - 2 ^ (f.ew + f.mw) else a + 2 ^ (f.ew + f.mw)

/-- Addition. An exact zero sum of operands of unlike sign is `+0`. -/
def Format.add (f : Format) (a b : Nat) : Nat :=
  match f.unpack a, f.unpack b with
  | .nan, _ => f.nanBits
  | _, .nan => f.nanBits
  | .inf s, .inf t => if s = t then f.signBits s + f.infBits else f.nanBits
  | .inf s, .fin _ _ _ => f.signBits s + f.infBits
  | .fin _ _ _, .inf t => f.signBits t + f.infBits
  | .fin s m e, .fin t n d =>
    let u := min e d
    let v := scaled s m e u + scaled t n d u
    if v = 0 then f.signBits (s && t) else f.round (decide (v < 0)) v.natAbs u false

/-- Subtraction: addition of the negated operand. -/
def Format.sub (f : Format) (a b : Nat) : Nat := f.add a (f.neg b)

/-- Multiplication. -/
def Format.mul (f : Format) (a b : Nat) : Nat :=
  match f.unpack a, f.unpack b with
  | .nan, _ => f.nanBits
  | _, .nan => f.nanBits
  | .inf s, .inf t => f.signBits (s != t) + f.infBits
  | .inf s, .fin t n _ => if n = 0 then f.nanBits else f.signBits (s != t) + f.infBits
  | .fin s m _, .inf t => if m = 0 then f.nanBits else f.signBits (s != t) + f.infBits
  | .fin s m e, .fin t n d => f.round (s != t) (m * n) (e + d) false

/-- Division. A nonzero number by zero is an infinity, zero by zero is NaN. -/
def Format.div (f : Format) (a b : Nat) : Nat :=
  match f.unpack a, f.unpack b with
  | .nan, _ => f.nanBits
  | _, .nan => f.nanBits
  | .inf _, .inf _ => f.nanBits
  | .inf s, .fin t _ _ => f.signBits (s != t) + f.infBits
  | .fin s _ _, .inf t => f.signBits (s != t)
  | .fin s m e, .fin t n d =>
    if n = 0 then
      if m = 0 then f.nanBits else f.signBits (s != t) + f.infBits
    else
      let k := Nat.log2 n + f.mw + 4
      f.round (s != t) (m * 2 ^ k / n) (e - d - k) (decide (m * 2 ^ k % n ≠ 0))

/-- The integer square root, from bit `k - 1` of the root down, the bits found so far being `r`. -/
def isqrtFrom (n : Nat) : Nat → Nat → Nat
  | 0, r => r
  | k + 1, r => if (r + 2 ^ k) * (r + 2 ^ k) ≤ n then isqrtFrom n k (r + 2 ^ k) else isqrtFrom n k r

/-- The integer square root. -/
def isqrt (n : Nat) : Nat := isqrtFrom n (Nat.log2 n / 2 + 1) 0

/-- Square root. Of a negative nonzero number it is NaN, of `-0` it is `-0`. -/
def Format.sqrt (f : Format) (a : Nat) : Nat :=
  match f.unpack a with
  | .nan => f.nanBits
  | .inf s => if s then f.nanBits else f.infBits
  | .fin s m e =>
    if m = 0 then f.signBits s
    else if s then f.nanBits
    else
      let k := 2 * (f.mw + 3) + (e % 2).toNat
      let n := m * 2 ^ k
      f.round false (isqrt n) ((e - k) / 2) (decide (isqrt n * isqrt n ≠ n))

/-- The "greater than" of IEEE 754: false where either operand is NaN, and zeros of either sign are equal. -/
def Format.gt (f : Format) (a b : Nat) : Bool :=
  match f.unpack a, f.unpack b with
  | .nan, _ => false
  | _, .nan => false
  | .inf s, .inf t => !s && t
  | .inf s, .fin _ _ _ => !s
  | .fin _ _ _, .inf t => t
  | .fin s m e, .fin t n d => decide (scaled t n d (min e d) < scaled s m e (min e d))

/-- A decimal literal to the nearest number of the format. -/
def Format.lit (f : Format) (l : DecLit) : Nat :=
  if 0 ≤ l.exp10 then f.round l.neg (l.digits * 10 ^ l.exp10.toNat) 0 false
  else
    let den := 10 ^ (-l.exp10).toNat
    let k := Nat.log2 den + f.mw + 4
    f.round l.neg (l.digits * 2 ^ k / den) (-k) (decide (l.digits * 2 ^ k % den ≠ 0))

end Sys2Proof.Machine
end

