-- ==== Sys2Proof/Machine/Numerics.lean ====
section
/-! DEFINITION. The numerics of the solver (spec/44_temperature_solver.md section 1): the instances binary32
(the default `NUM`) and binary64 (used by the spec's vectors), the constants of the document as printed,
the two sets of coefficients, and what a block's configuration selects among them. -/

namespace Sys2Proof.Machine

/-- IEEE 754 binary32. -/
def fmt32 : Format := ⟨8, 23⟩

/-- IEEE 754 binary64. -/
def fmt64 : Format := ⟨11, 52⟩

/-- The operations of a format on bit patterns of `w` bits. -/
def Format.num (f : Format) (w : Nat) : Num (BitVec w) where
  fadd a b := BitVec.ofNat w (f.add a.toNat b.toNat)
  fsub a b := BitVec.ofNat w (f.sub a.toNat b.toNat)
  fmul a b := BitVec.ofNat w (f.mul a.toNat b.toNat)
  fdiv a b := BitVec.ofNat w (f.div a.toNat b.toNat)
  fsqrt a := BitVec.ofNat w (f.sqrt a.toNat)
  fneg a := BitVec.ofNat w (f.neg a.toNat)
  fgt a b := f.gt a.toNat b.toNat
  ofNat n := BitVec.ofNat w (f.round false n.toNat 0 false)
  lit l := BitVec.ofNat w (f.lit l)

/-- The default instance of `NUM` (R121, D1). -/
def binary32 : Num (BitVec 32) := fmt32.num 32

/-- The second instance of R121. -/
def binary64 : Num (BitVec 64) := fmt64.num 64

/-- `CVD_A = 3.9083e-3` (R122). -/
def cvdA : DecLit := ⟨false, 39083, -7⟩

/-- `CVD_B = -5.775e-7` (R122). -/
def cvdB : DecLit := ⟨true, 5775, -10⟩

/-- A literal that the document prints as an integer: 0, 2, 4, 100, 32768. -/
def intLit (n : Nat) : DecLit := ⟨false, n, 0⟩

/-- `POLY_C` as the document prints it (R125). -/
def polyPrinted : PolyC where
  c0 := ⟨true, 24202, -2⟩
  c1 := ⟨false, 22228, -4⟩
  c2 := ⟨false, 25859, -7⟩
  c3 := ⟨false, 48260, -10⟩
  c4 := ⟨false, 28183, -12⟩
  c5 := ⟨false, 15243, -14⟩

/-- The set with the cubic and the quartic coefficient negated (G2), the other set that R125 names. -/
def polyNegated : PolyC :=
  { polyPrinted with c3 := ⟨true, 48260, -10⟩, c4 := ⟨true, 28183, -12⟩ }

end Sys2Proof.Machine

namespace Sys2Proof

/-- `FW` of the `NUM` selected: 32 with the default (spec/00_scope.md section 4). -/
def NumSel.fw : NumSel → Nat
  | .binary32 => 32
  | .binary64 => 64
  | .other k => Config.otherFw k

/-- The `NUM` selected, over patterns of its own width. -/
def NumSel.num : (n : NumSel) → Num (BitVec n.fw)
  | .binary32 => Machine.binary32
  | .binary64 => Machine.binary64
  | .other k => Config.otherNum k

/-- A pattern as the value of the type `F` that the numerics work on. -/
def NumSel.value (n : NumSel) (x : Flt) : BitVec n.fw := BitVec.ofNat n.fw x

/-- The default configuration: binary32 and the coefficients as printed, which the spec gives as the default.
DESIGN CHOICE: the spec gives `EW` none, and 32 is taken. -/
def Params.default : Params := ⟨.binary32, Machine.polyPrinted, 32⟩

end Sys2Proof
end

