-- ==== Sys2Proof/WellFormed.lean ====
section
/-! DEFINITION. Well-formedness of an instruction. The operand types already hold every operand to the width
that R57 gives it (a RawRatio has 15 bits, a Configuration has five fields), so the only checks left are
those of the two reserved rows: the word carried must have the row's OP field. -/

namespace Sys2Proof

/-- The check that an instruction is one of its row's: RESERVED_E and RESERVED_F carry their whole command
word, whose OP field `cw[31:28]` must be 0xE and 0xF (R57, R63). -/
def Instr.wf : Instr → Bool
  | .encode _ => true
  | .decode _ => true
  | .beginOp _ _ _ => true
  | .endOp => true
  | .setConfig _ => true
  | .getConfig => true
  | .clearFault => true
  | .readFault => true
  | .getRaw => true
  | .getTemp => true
  | .solve _ _ _ => true
  | .resist _ _ => true
  | .cvd _ _ => true
  | .poly _ _ => true
  | .reservedE cw => cw.extractLsb' 28 4 == 0xE#4
  | .reservedF cw => cw.extractLsb' 28 4 == 0xF#4
  | .cfgWr _ => true
  | .cfgRd => true
  | .rtdRd => true
  | .faultRd => true
  | .cfgByteEncode _ => true
  | .cfgByteDecode _ => true
  | .raw16 _ => true

end Sys2Proof
end

