-- ==== Sys2Proof/Decode.lean ====
section
/-! DEFINITION. The five fixed formats of R50, the decoder from what is presented to an instruction, total
and rejecting by name, and after it the encoder, written from the same tables. The configuration byte, the
packed Configuration and the address byte are coded here once, for the decoder and for the machine. -/

namespace Sys2Proof

/-! ## The fields of a Configuration as bits (R11, R51) -/

/-- 1 = Three, 0 = Two/Four. -/
def WireCount.bit : WireCount → BitVec 1
  | .twoFour => 0#1
  | .three => 1#1

/-- The wire count of a bit. -/
def WireCount.ofBit (b : Bool) : WireCount := if b then .three else .twoFour

/-- 1 = 50 Hz, 0 = 60 Hz. -/
def MainsFilter.bit : MainsFilter → BitVec 1
  | .hz60 => 0#1
  | .hz50 => 1#1

/-- The mains filter of a bit. -/
def MainsFilter.ofBit (b : Bool) : MainsFilter := if b then .hz50 else .hz60

/-- 0 NoAction, 1 Automatic, 2 RunManual, 3 FinishManual (D18). -/
def FaultCycle.code : FaultCycle → BitVec 2
  | .noAction => 0#2
  | .automatic => 1#2
  | .runManual => 2#2
  | .finishManual => 3#2

/-- The fault-detection cycle of a high and a low bit. -/
def FaultCycle.ofBits (hi lo : Bool) : FaultCycle :=
  match hi, lo with
  | false, false => .noAction
  | false, true => .automatic
  | true, false => .runManual
  | true, true => .finishManual

/-! ## CFGB, the configuration byte (R51, R70, R71) -/

/-- `encode(c)` (R70): bits 5 and 1 are always 0, and the fault-detection field is placed in full. -/
def encodeConfig (c : Configuration) : Byte :=
  BitVec.ofBool c.vbias ++ BitVec.ofBool c.auto ++ 0#1 ++ c.wire.bit ++ c.fdc.code ++ 0#1 ++ c.filter.bit

/-- `decode(b)` (R71): bits 5, 3 and 1 are not read, so only the low bit of the fault-detection field comes
back. -/
def decodeConfig (b : Byte) : Configuration where
  vbias := b.getLsbD 7
  auto := b.getLsbD 6
  wire := WireCount.ofBit (b.getLsbD 4)
  fdc := FaultCycle.ofBits false (b.getLsbD 2)
  filter := MainsFilter.ofBit (b.getLsbD 0)

/-- The Configuration of a byte that `encode` produced, with both bits of the fault-detection field. -/
def configOfEncoded (b : Byte) : Configuration :=
  { decodeConfig b with fdc := FaultCycle.ofBits (b.getLsbD 3) (b.getLsbD 2) }

/-! ## CFG6, the packed Configuration (R52) -/

/-- The Configuration as `cfg6`. -/
def packCfg6 (c : Configuration) : BitVec 6 :=
  BitVec.ofBool c.vbias ++ BitVec.ofBool c.auto ++ c.wire.bit ++ c.fdc.code ++ c.filter.bit

/-- The Configuration of a `cfg6`. -/
def unpackCfg6 (v : BitVec 6) : Configuration where
  vbias := v.getLsbD 5
  auto := v.getLsbD 4
  wire := WireCount.ofBit (v.getLsbD 3)
  fdc := FaultCycle.ofBits (v.getLsbD 2) (v.getLsbD 1)
  filter := MainsFilter.ofBit (v.getLsbD 0)

/-! ## ADDRB, the address byte (R33, R54) -/

/-- The address byte of a write: `(addr & 0x7F) | 0x80`. -/
def writeAddrByte (a : RegIndex) : Byte := (a.zeroExtend 8 &&& 0x7F#8) ||| 0x80#8

/-- The address byte of a read: `addr & 0x7F`. -/
def readAddrByte (a : RegIndex) : Byte := a.zeroExtend 8 &&& 0x7F#8

/-! ## CMD, the command word (R57) -/

/-- `cw[31:28] = OP`. -/
def opField (cw : CmdWord) : BitVec 4 := cw.extractLsb' 28 4

/-- `cw[27:16]`, which must be zero. -/
def zeroField (cw : CmdWord) : BitVec 12 := cw.extractLsb' 16 12

/-- `cw[15:0] = IMM`. -/
def immField (cw : CmdWord) : BitVec 16 := cw.extractLsb' 0 16

/-- The command word with a given OP and IMM. -/
def cmdWord (op : BitVec 4) (imm : BitVec 16) : CmdWord := op ++ 0#12 ++ imm

/-! ## What is presented, and the decoder -/

/-- What the machine can be given to run next. A caller presents commands only: a command word with its two
floating-point operand ports (R57). The other four stand for the rows of the opcode table that are no
commands: the address byte of a transaction with the payload byte of a write, a byte on the encode or on
the decode side of the codec, a raw word. -/
inductive Presented where
  | cmd (cw : CmdWord) (fa fb : Flt)
  | addrb (ab payload : Byte)
  | cfgbEncode (b : Byte)
  | cfgbDecode (b : Byte)
  | raw16 (w : Raw16)
  deriving DecidableEq, Repr

/-- What is presented, as it is sampled on ports of `fw` bits (R57, R61). -/
def Presented.onPorts (fw : Nat) : Presented → Presented
  | .cmd cw fa fb => .cmd cw (fa % 2 ^ fw) (fb % 2 ^ fw)
  | .addrb ab payload => .addrb ab payload
  | .cfgbEncode b => .cfgbEncode b
  | .cfgbDecode b => .cfgbDecode b
  | .raw16 w => .raw16 w

/-- Why a decoding is rejected. The first two are the illegal command words of R63, which the machine answers
with BAD_COMMAND. The last two concern no command. -/
inductive DecodeError where
  /-- `cw[27:16]` is not zero. -/
  | reservedBits
  /-- A bit of IMM that the operation does not use is not zero. -/
  | unusedImm
  /-- An address byte that the block never sends (R85). -/
  | foreignAddress
  /-- A byte with bit 5 or bit 1 set, which ENCODE never produces (R64). -/
  | writeOnlyBits
  deriving DecidableEq, Repr

/-- Accept an instruction whose operand is the low `used` bits of IMM, if every other bit of IMM is zero. -/
def withImm (imm : BitVec 16) (used : Nat) (i : Instr) : Except DecodeError Instr :=
  if imm >>> used = 0#16 then .ok i else .error .unusedImm

/-- The decoder of the command port (R57, R60, R61 check 1, R63). A reserved OP is decoded to its own row
whatever the other bits are; a word of the fourteen operations must have its reserved and its unused
bits zero. -/
def decodeCmd (cw : CmdWord) (fa fb : Flt) : Except DecodeError Instr :=
  let imm := immField cw
  match (opField cw).toNat with
  | 14 => .ok (.reservedE cw)
  | 15 => .ok (.reservedF cw)
  | op =>
    if zeroField cw ≠ 0#12 then .error .reservedBits
    else
      match op with
      | 0 => withImm imm 6 (.encode (unpackCfg6 (imm.extractLsb' 0 6)))
      | 1 => withImm imm 8 (.decode (imm.extractLsb' 0 8))
      | 2 => withImm imm 6 (.beginOp (unpackCfg6 (imm.extractLsb' 0 6)) fa fb)
      | 3 => withImm imm 0 .endOp
      | 4 => withImm imm 6 (.setConfig (unpackCfg6 (imm.extractLsb' 0 6)))
      | 5 => withImm imm 0 .getConfig
      | 6 => withImm imm 0 .clearFault
      | 7 => withImm imm 0 .readFault
      | 8 => withImm imm 0 .getRaw
      | 9 => withImm imm 0 .getTemp
      | 10 => withImm imm 15 (.solve (imm.extractLsb' 0 15) fa fb)
      | 11 => withImm imm 15 (.resist (imm.extractLsb' 0 15) fa)
      | 12 => withImm imm 0 (.cvd fa fb)
      | _ => withImm imm 0 (.poly fa fb)

/-- The decoder of an address byte (R54, R81 to R84): the write-select bit tells the write from the reads,
and the three reads are told apart by the register index. -/
def decodeAddrByte (ab payload : Byte) : Except DecodeError Instr :=
  if ab = writeAddrByte Config.addrConfig then .ok (.cfgWr payload)
  else if ab = readAddrByte Config.addrConfig then .ok .cfgRd
  else if ab = readAddrByte Config.addrRtd then .ok .rtdRd
  else if ab = readAddrByte Config.addrFault then .ok .faultRd
  else .error .foreignAddress

/-- The decoder, total on whatever is presented. -/
def decode : Presented → Except DecodeError Instr
  | .cmd cw fa fb => decodeCmd cw fa fb
  | .addrb ab payload => decodeAddrByte ab payload
  | .cfgbEncode b => if b &&& 0x22#8 = 0#8 then .ok (.cfgByteEncode (configOfEncoded b)) else .error .writeOnlyBits
  | .cfgbDecode b => .ok (.cfgByteDecode b)
  | .raw16 w => .ok (.raw16 w)

/-! ## The encoder (R57, R60, R65) -/

/-- The words of an instruction. A floating-point operand that the operation does not use is 0. -/
def encode : Instr → Presented
  | .encode c => .cmd (cmdWord 0x0#4 ((packCfg6 c).zeroExtend 16)) 0 0
  | .decode b => .cmd (cmdWord 0x1#4 (b.zeroExtend 16)) 0 0
  | .beginOp c rref rnom => .cmd (cmdWord 0x2#4 ((packCfg6 c).zeroExtend 16)) rref rnom
  | .endOp => .cmd (cmdWord 0x3#4 0#16) 0 0
  | .setConfig c => .cmd (cmdWord 0x4#4 ((packCfg6 c).zeroExtend 16)) 0 0
  | .getConfig => .cmd (cmdWord 0x5#4 0#16) 0 0
  | .clearFault => .cmd (cmdWord 0x6#4 0#16) 0 0
  | .readFault => .cmd (cmdWord 0x7#4 0#16) 0 0
  | .getRaw => .cmd (cmdWord 0x8#4 0#16) 0 0
  | .getTemp => .cmd (cmdWord 0x9#4 0#16) 0 0
  | .solve ratio rref rnom => .cmd (cmdWord 0xA#4 (ratio.zeroExtend 16)) rref rnom
  | .resist ratio rref => .cmd (cmdWord 0xB#4 (ratio.zeroExtend 16)) rref 0
  | .cvd rrtd rnom => .cmd (cmdWord 0xC#4 0#16) rrtd rnom
  | .poly rrtd rnom => .cmd (cmdWord 0xD#4 0#16) rrtd rnom
  | .reservedE cw => .cmd cw 0 0
  | .reservedF cw => .cmd cw 0 0
  | .cfgWr b => .addrb (writeAddrByte Config.addrConfig) b
  | .cfgRd => .addrb (readAddrByte Config.addrConfig) 0
  | .rtdRd => .addrb (readAddrByte Config.addrRtd) 0
  | .faultRd => .addrb (readAddrByte Config.addrFault) 0
  | .cfgByteEncode c => .cfgbEncode (encodeConfig c)
  | .cfgByteDecode b => .cfgbDecode b
  | .raw16 w => .raw16 w

/-! ## The command rows of spec/opcode_table.json -/

/-- One row of the opcode table: a word `w` is of the row when `w & mask = value`. -/
structure CmdRow where
  mnemonic : String
  value : CmdWord
  mask : CmdWord
  deriving DecidableEq, Repr

/-- A word is of the row. -/
def CmdRow.accepts (r : CmdRow) (cw : CmdWord) : Bool := cw &&& r.mask == r.value

/-- The fourteen rows of the operations, with the table's match and mask. -/
def operationRows : List CmdRow :=
  [ ⟨"ENCODE", 0x00000000, 0xFFFFFFC0⟩, ⟨"DECODE", 0x10000000, 0xFFFFFF00⟩,
    ⟨"BEGIN", 0x20000000, 0xFFFFFFC0⟩, ⟨"END", 0x30000000, 0xFFFFFFFF⟩,
    ⟨"SETCONFIG", 0x40000000, 0xFFFFFFC0⟩, ⟨"GETCONFIG", 0x50000000, 0xFFFFFFFF⟩,
    ⟨"CLEARFAULT", 0x60000000, 0xFFFFFFFF⟩, ⟨"READFAULT", 0x70000000, 0xFFFFFFFF⟩,
    ⟨"GETRAW", 0x80000000, 0xFFFFFFFF⟩, ⟨"GETTEMP", 0x90000000, 0xFFFFFFFF⟩,
    ⟨"SOLVE", 0xA0000000, 0xFFFF8000⟩, ⟨"RESIST", 0xB0000000, 0xFFFF8000⟩,
    ⟨"CVD", 0xC0000000, 0xFFFFFFFF⟩, ⟨"POLY", 0xD0000000, 0xFFFFFFFF⟩ ]

/-- The two reserved rows. -/
def reservedRows : List CmdRow :=
  [⟨"RESERVED_E", 0xE0000000, 0xF0000000⟩, ⟨"RESERVED_F", 0xF0000000, 0xF0000000⟩]

/-! ## The host's numbering of a table row's bits -/

/-- The item presented for a table word of `nbits` bits. A 32-bit word is a command word with both operand
ports 0. An 8-bit word is read as an address byte (with a payload byte of 0): the table's own rows of 8
bits overlap, and a byte alone does not say on which side of the block it stands. A 16-bit word is a
raw word. -/
def tableItem (nbits w : Nat) : Option Presented :=
  match nbits with
  | 8 => some (.addrb (BitVec.ofNat 8 w) 0)
  | 16 => some (.raw16 (BitVec.ofNat 16 w))
  | 32 => some (.cmd (BitVec.ofNat 32 w) 0 0)
  | _ => none

/-- The instruction that the decoder reads from a table word. -/
def decodeTableWord (nbits w : Nat) : Option Instr :=
  match tableItem nbits w with
  | none => none
  | some p =>
    match decode p with
    | .ok i => some i
    | .error _ => none

end Sys2Proof
end

