-- ==== Sys2Proof/Machine/State.lean ====
section
/-! DEFINITION. The state of the block as plain data: its configuration (R5), its six registers (R10), its
two ports, its reset input, the observation of the last operation (R38, R59), the environment's inputs, and the state after
reset. -/

namespace Sys2Proof.Machine

/-- `LIFE` (R13). Value 3 of the 2-bit register is never written and is not representable (U15). -/
inductive Life where
  | down
  | up
  | dead
  deriving DecidableEq, Repr

/-- `STATE` (R14). Values 5 to 7 of the 3-bit register are never written and are not representable (U15). -/
inductive SeqState where
  | idle
  | biasWarmup
  | conversionPending
  | readBack
  | restore
  deriving DecidableEq, Repr

/-- The direction of a transaction (R80). -/
inductive Direction where
  | read
  | write
  deriving DecidableEq, Repr

/-- A request on the port toward the transport (R80): direction, address byte, number of bytes, and the
payload of a write. -/
structure Request where
  dir      : Direction
  addrByte : Byte
  len      : Nat
  payload  : List Byte
  deriving DecidableEq, Repr

/-- What became of a request, of an acquire or of a release: answered with success and the bytes delivered,
answered with an error value, or not answered. -/
inductive BusOutcome where
  | ok (data : List Byte)
  | err (e : ErrVal)
  | unanswered
  deriving DecidableEq, Repr

/-- One event of the history (R38). -/
inductive Event where
  | txn (r : Request) (o : BusOutcome)
  | delay (k : DelayKind)
  | acquire (o : BusOutcome)
  | release (o : BusOutcome)
  deriving DecidableEq, Repr

/-- What the block waits for while an answer is outstanding (R80, R178). -/
inductive Pending where
  | txn (r : Request)
  | acquire
  deriving DecidableEq, Repr

/-- The status of a response (R59, R150). -/
inductive Status where
  | ok
  | transportError
  | busInitError
  | notReady
  | badCommand
  deriving DecidableEq, Repr

/-- The meaningful field of a response (R59): a byte in `rd[7:0]`, a Configuration in `rd[5:0]`, a RawRatio
in `rd[14:0]`, a float in `rf`, an error value in `re`, or none. "Every other field … is unspecified and a
model gives it no value". -/
inductive Result where
  | none
  | byte (b : Byte)
  | config (c : Configuration)
  | ratio (r : Ratio)
  | float (f : Flt)
  | error (e : ErrVal)
  deriving DecidableEq, Repr

/-- A response (R59). -/
structure Response where
  status : Status
  result : Result
  deriving DecidableEq, Repr

/-- What a row of the opcode table that is no command delivers when it is run alone. Model's own: no
operation reads it. -/
inductive MicroOut where
  | written
  | byte (b : Byte)
  | config (c : Configuration)
  | raw (w : Raw16)
  | ratio (r : Ratio)
  deriving DecidableEq, Repr

/-- When a reset comes (R170): between operations, that is when the one before has responded and before the
next command is accepted; inside an operation, before its next event is issued or, where no event is left,
before its response; or inside the next event, that is while a request is outstanding or a delay runs.
Where the next event of an operation is still to come, `between` is as `before`; where the next command is
still to be accepted, the two others let it be accepted and end it. -/
inductive ResetTime where
  | between
  | before
  | inside
  deriving DecidableEq, Repr

/-- One input of the environment: the answer to a request, an acquire or a release (R36, U11, U19), no answer
ever (U12, R178), or the assertion of the reset input (R170). -/
inductive Draw where
  | answer (r : Reply)
  | silent
  | reset (t : ResetTime)
  deriving DecidableEq, Repr

/-- The state. `params` is the configuration of the block (R5), which nothing writes. The next six fields are
the architectural state of R10. `pending` is the request port, `resetPin` the reset input, `resp` the
response port, `events` the event history of the last operation.
`walk` (the values `STATE` took in the last operation) and `micro` are the model's own and nothing
depends on them. `queue` holds the commands the caller presents, oldest first, `script` the inputs the
environment has chosen, oldest first, and `draws` counts the draws made. -/
structure State where
  params   : Params
  cfg      : Configuration
  rref     : Flt
  rnom     : Flt
  life     : Life
  seq      : SeqState
  tmr      : Timer
  pending  : Option Pending
  resetPin : Bool
  resp     : Option Response
  events   : List Event
  walk     : List SeqState
  micro    : Option MicroOut
  queue    : List Presented
  script   : List Draw
  draws    : Nat
  deriving DecidableEq, Repr

/-- The block never faults (an error is a response). These two are raised by the step only, when something
that is no command is presented that the block itself never forms. Both are safe: the model stops. -/
inductive Fault where
  /-- An address byte alone that is none of the four transactions' (R85). Raised by the step. Safe. -/
  | foreignAddress
  /-- A byte with bit 5 or bit 1 set on the encode side of the codec (R64). Raised by the step. Safe. -/
  | writeOnlyBits
  deriving DecidableEq, Repr

/-- Refusals of the model. A refusal of the hardware (R153) is a response and no refusal of the model. -/
inductive Refusal where
  /-- An instruction with no meaning in this model. No arm of exec raises it. Safe. -/
  | notModelled (mnemonic : String)
  deriving DecidableEq, Repr

/-- A block of configuration `p` after reset (R20, R170). `CFG`, `RREF` and `RNOM` are unspecified: they hold
the free values of draw 0, of which nothing is known. Nothing is presented and no input has been chosen. -/
def State.resetWith (p : Params) : State where
  params := p
  cfg := Config.freeCfg 0
  rref := (Config.freeRref p.num.fw 0).toNat
  rnom := (Config.freeRnom p.num.fw 0).toNat
  life := .down
  seq := .idle
  tmr := 0
  pending := none
  resetPin := false
  resp := none
  events := []
  walk := []
  micro := none
  queue := []
  script := []
  draws := 1

/-- The block of the default configuration after reset. -/
def State.reset : State := State.resetWith Params.default

end Sys2Proof.Machine
end

