-- ==== Sys2Proof/Machine/Flags.lean ====
section
/-! DEFINITION. The block has no status flags and no condition codes (R18). What stands here instead: the
numeric codes of its enumerations, and the conditions that R18 lists, those tested on `CFG` in the
acquisition and the admission checks on `STATE` and `LIFE`. -/

namespace Sys2Proof.Machine

/-- The code of `LIFE` (R13). -/
def Life.code : Life → BitVec 2
  | .down => 0
  | .up => 1
  | .dead => 2

/-- The code of `STATE` (R14). -/
def SeqState.code : SeqState → BitVec 3
  | .idle => 0
  | .biasWarmup => 1
  | .conversionPending => 2
  | .readBack => 3
  | .restore => 4

/-- The code of a status (R59). -/
def Status.code : Status → BitVec 3
  | .ok => 0
  | .transportError => 1
  | .busInitError => 2
  | .notReady => 3
  | .badCommand => 4

/-- Step 1 of the acquisition is performed: "If `cfg.vbiasEnabled` is false" (R91). -/
def needsBias (c : Configuration) : Bool := !c.vbias

/-- Step 2 of the acquisition is performed: "If `cfg.autoConversionEnabled` is false" (R92). -/
def needsConversion (c : Configuration) : Bool := !c.auto

/-- `cmd_ready`: "A command is accepted only when `STATE = Idle` and no operation is in progress" (R61). An
operation is in progress between steps exactly while its request is not answered (R178). -/
def State.cmdReady (s : State) : Bool := decide (s.seq = .idle) && s.pending.isNone

end Sys2Proof.Machine
end

