-- ==== Sys2Proof/Machine/Operands.lean ====
section
/-! DEFINITION. The operand forms: the two shapes of a request, the assembly of the raw word and of the
ratio, the bytes that the read-modify-write rules compute, and the response as it stands on its port. -/

namespace Sys2Proof.Machine

/-- `MemRead(addr, n)` as a request (R31, R33): one address byte whatever `n` is. -/
def Request.read (a : RegIndex) (n : Nat) : Request := ⟨.read, readAddrByte a, n, []⟩

/-- `MemWrite(addr, 1, b)` as a request (R32, R33). -/
def Request.write (a : RegIndex) (b : Byte) : Request := ⟨.write, writeAddrByte a, 1, [b]⟩

/-- The bytes that a successful answer delivers: exactly `n` for a read, none for a write (R31, R32). -/
def Request.delivered (r : Request) (d0 d1 : Byte) : List Byte :=
  match r.dir with
  | .read => [d0, d1].take r.len
  | .write => []

/-- `raw16 = {d[0], d[1]}`: the byte received first is the more significant one (R39). -/
def assembleRaw (d0 d1 : Byte) : Raw16 := d0 ++ d1

/-- `RawRatio = raw16 >> 1 = raw16[15:1]` (R55): the fault flag, bit 0, is dropped unread (R53). -/
def ratioOf (w : Raw16) : Ratio := w.extractLsb' 1 15

/-- Step 1 of the acquisition: `encode(c) | 0x80` (R91). -/
def biasByte (c : Configuration) : Byte := encodeConfig c ||| 0x80#8

/-- Step 2 of the acquisition: `cb | 0x20` (R92). -/
def oneShotByte (cb : Byte) : Byte := cb ||| 0x20#8

/-- CLEARFAULT: `cb & 0xFD` (R110). -/
def clearFaultByte (cb : Byte) : Byte := cb &&& 0xFD#8

/-- The bits of the 32-bit port `rd` that are meaningful for a result (R59). -/
def Result.rdMask : Result → BitVec 32
  | .byte _ => 0xFF
  | .config _ => 0x3F
  | .ratio _ => 0x7FFF
  | _ => 0

/-- The port `rd` on the bits of `rdMask` (R59). Nothing is said of its other bits. -/
def Result.rdBits : Result → BitVec 32
  | .byte b => b.zeroExtend 32
  | .config c => (packCfg6 c).zeroExtend 32
  | .ratio r => r.zeroExtend 32
  | _ => 0

end Sys2Proof.Machine
end

