-- ==== Sys2Proof/Machine/Ops.lean ====
section
/-! DEFINITION. The named operations that every meaning is written over: the observation, the draws, the two
access primitives, the bus resource, the delay, the four transactions, and in one place the abort of an
operation by an error (the block's only kind of exception, R154, R155), the refusals (R153) and reset (R170:
its input is asserted, and released in the step after). An operation whose effect can end the command in
progress takes what comes after it as its last argument. -/

namespace Sys2Proof.Machine

/-! ## The observation of an operation -/

/-- An accepted command begins: the history, the response and the model's own records of the operation before
it are those of the new operation from now on (R38, R62). No register changes. -/
def State.startOp (s : State) : State := { s with resp := none, events := [], walk := [], micro := none }

/-- Append an event to the history (R38). -/
def State.record (s : State) (e : Event) : State := { s with events := s.events ++ [e] }

/-- `STATE <- q` (R95). -/
def State.enter (s : State) (q : SeqState) : State := { s with seq := q, walk := s.walk ++ [q] }

/-! ## Draws (R36) and the reset input (R170) -/

end Sys2Proof.Machine

/-- An answer as it reaches the block, an error value on a port of `ew` bits (R59, D37). -/
def Sys2Proof.Reply.onPorts (ew : Nat) : Sys2Proof.Reply → Sys2Proof.Reply
  | .ok d0 d1 => .ok d0 d1
  | .err e => .err (e % 2 ^ ew)

namespace Sys2Proof.Machine

/-- An input as it reaches the block. -/
def Draw.onPorts (ew : Nat) : Draw → Draw
  | .answer r => .answer (r.onPorts ew)
  | .silent => .silent
  | .reset t => .reset t

/-- The next input of the environment: the head of its script, or else a free answer. -/
def State.draw (s : State) : Draw :=
  match s.script with
  | d :: _ => d.onPorts s.params.ew
  | [] => .answer ((Config.freeReply s.draws).onPorts s.params.ew)

/-- The state in which the next input has been taken. -/
def State.popDraw (s : State) : State := { s with script := s.script.tail, draws := s.draws + 1 }

/-- The input that the environment gives to the `n`-th draw from now. -/
def State.upcoming (s : State) : Nat → Draw
  | 0 => s.draw
  | n + 1 => s.popDraw.upcoming n

/-- The input asserts the reset input. -/
def Draw.isReset : Draw → Bool
  | .answer _ => false
  | .silent => false
  | .reset _ => true

/-- The input asserts the reset input before the operation in progress has responded. -/
def Draw.endsOperation : Draw → Bool
  | .answer _ => false
  | .silent => false
  | .reset .between => false
  | .reset .before => true
  | .reset .inside => true

/-- The reset input is asserted: "While it is asserted and on its release the registers take the values of"
R20, that is `LIFE`, `STATE` and `TMR` their reset values, and `CFG`, `RREF` and `RNOM`, unspecified, fresh
free values. Nothing is outstanding and no response stands. What the caller has presented and the
environment has chosen stays, and so does the history. -/
def State.assertReset (s : State) : State :=
  { s with
    cfg := Config.freeCfg s.draws
    rref := (Config.freeRref s.params.num.fw s.draws).toNat
    rnom := (Config.freeRnom s.params.num.fw s.draws).toNat
    life := .down, seq := .idle, tmr := 0, pending := none, resetPin := true, resp := none, micro := none
    draws := s.draws + 1 }

/-- The reset input is released (R170): the registers take the values of R20 once more, and the block waits for
a command. -/
def State.releaseReset (s : State) : State := { s.assertReset with resetPin := false }

/-- The environment's next input is a reset, which comes now: "A reset that arrives while an operation is in
progress ends it with no response and no further event" (R170). -/
def State.cutShort (s : State) : State := s.popDraw.assertReset

/-! ## The end of an operation -/

/-- The response of an operation that ends (R62), if no reset comes before it. -/
def State.respond (s : State) (st : Status) (r : Result) : State :=
  if s.draw.endsOperation then s.cutShort else { s with resp := some ⟨st, r⟩ }

/-- `return v`: status OK with the result `v` (R62). -/
def State.returnOk (s : State) (r : Result) : State := s.respond .ok r

/-- What a row that is no command delivers, run alone. -/
def State.deliver (s : State) (m : MicroOut) : State := { s with micro := some m }

/-! ## Errors and refusals -/

/-- The abort of the operation in progress by an error (R154, R155): "`STATE <- Idle`, `TMR <- 0`", the
response has the status and `re = e`, and no event follows. There is no way back into the operation: control
returns to the caller with the response (R158). -/
def State.abort (s : State) (st : Status) (e : ErrVal) : State :=
  State.respond { s with seq := .idle, tmr := 0 } st (.error e)

/-- `raise TransportError(e)` (R151). -/
def raiseTransportError (e : ErrVal) (s : State) : State := s.abort .transportError e

/-- `raise BusInitError(e)` (R152): `LIFE <- Dead`. -/
def raiseBusInitError (e : ErrVal) (s : State) : State := State.abort { s with life := .dead } .busInitError e

/-- `refuse(reason)` (R153): a response and nothing else. -/
def refuse (st : Status) (s : State) : State := s.respond st .none

/-! ## Admission (R61 checks 2 and 3) -/

/-- The operation needs `LIFE = Up`; otherwise it is refused with NOT_READY. -/
def needUp (s : State) (k : State → State) : State :=
  if s.life = .up then k s.startOp else refuse .notReady s.startOp

/-- The operation needs `LIFE = Down`; otherwise it is refused with NOT_READY. -/
def needDown (s : State) (k : State → State) : State :=
  if s.life = .down then k s.startOp else refuse .notReady s.startOp

/-! ## The access primitives (R31, R32) -/

/-- One blocking transaction. On success the operation goes on with the bytes delivered; on `err e` it raises
TransportError; where the transport never answers, the request stays outstanding and the block stays busy
(R178). A reset comes before the request is issued, or while it is outstanding: its outcome is unknown, and
the block no longer waits for it (R170). -/
def transact (r : Request) (s : State) (k : Byte → Byte → State → State) : State :=
  match s.draw with
  | .answer (.ok d0 d1) => k d0 d1 (s.popDraw.record (.txn r (.ok (r.delivered d0 d1))))
  | .answer (.err e) => raiseTransportError e (s.popDraw.record (.txn r (.err e)))
  | .silent => { s.popDraw.record (.txn r .unanswered) with pending := some (.txn r) }
  | .reset .inside => s.cutShort.record (.txn r .unanswered)
  | .reset .before => s.cutShort
  | .reset .between => s.cutShort

/-- `MemRead(addr, 1)` (R31). -/
def memRead1 (a : RegIndex) (s : State) (k : Byte → State → State) : State :=
  transact (Request.read a 1) s (fun d0 _ => k d0)

/-- `MemRead(addr, 2)` (R31). -/
def memRead2 (a : RegIndex) (s : State) (k : Byte → Byte → State → State) : State :=
  transact (Request.read a 2) s k

/-- `MemWrite(addr, 1, b)` (R32). -/
def memWrite1 (a : RegIndex) (b : Byte) (s : State) (k : State → State) : State :=
  transact (Request.write a b) s (fun _ _ => k)

/-! ## The four transactions (R81 to R84) -/

/-- CFG_WR b (R81). -/
def cfgWr (b : Byte) (s : State) (k : State → State) : State := memWrite1 Config.addrConfig b s k

/-- CFG_RD (R82). -/
def cfgRd (s : State) (k : Byte → State → State) : State := memRead1 Config.addrConfig s k

/-- RTD_RD (R83). -/
def rtdRd (s : State) (k : Raw16 → State → State) : State :=
  memRead2 Config.addrRtd s (fun d0 d1 => k (assembleRaw d0 d1))

/-- FAULT_RD (R84). -/
def faultRd (s : State) (k : Byte → State → State) : State := memRead1 Config.addrFault s k

/-! ## The bus resource (R140, R141) -/

/-- `BusAcquire()` (R140): on `err e` the operation raises BusInitError. -/
def busAcquire (s : State) (k : State → State) : State :=
  match s.draw with
  | .answer (.ok _ _) => k (s.popDraw.record (.acquire (.ok [])))
  | .answer (.err e) => raiseBusInitError e (s.popDraw.record (.acquire (.err e)))
  | .silent => { s.popDraw.record (.acquire .unanswered) with pending := some .acquire }
  | .reset .inside => s.cutShort.record (.acquire .unanswered)
  | .reset .before => s.cutShort
  | .reset .between => s.cutShort

/-- `BusRelease()` (R141): "Whatever it answers, the block treats it as done." -/
def busRelease (s : State) (k : State → State) : State :=
  match s.draw with
  | .answer (.ok _ _) => k (s.popDraw.record (.release (.ok [])))
  | .answer (.err e) => k (s.popDraw.record (.release (.err e)))
  | .silent => k (s.popDraw.record (.release .unanswered))
  | .reset .inside => s.cutShort.record (.release .unanswered)
  | .reset .before => s.cutShort
  | .reset .between => s.cutShort

/-! ## The delays and the timer (R16, R96) -/

/-- One clock cycle of the timer: "decrements by one each clock cycle while nonzero". -/
def timerTick (t : Timer) : Timer := if t = 0 then 0 else t - 1

/-- `n` clock cycles of the timer, one by one. -/
def timerRun : Nat → Timer → Timer
  | 0, t => t
  | n + 1, t => timerRun n (timerTick t)

/-- `n` clock cycles of the timer at once: what `timerRun` gives, without a tick for each cycle. -/
def timerAfter (n : Nat) (t : Timer) : Timer := if t.toNat ≤ n then 0 else t - BitVec.ofNat TW n

/-- The timer when a delay has ended: as many cycles after it was loaded as the load says (R96). -/
def delayTimer (d : DelayKind) : Timer := timerAfter (Config.cycles d) (BitVec.ofNat TW (Config.cycles d))

/-- `Delay(d)` (R96): the timer is loaded and counts down for as many cycles, in which the block issues
nothing. It "cannot fail and cannot be cancelled"; a reset comes before it or inside it, and stops the timer
(R170). -/
def delay (d : DelayKind) (s : State) (k : State → State) : State :=
  match s.draw with
  | .answer _ => k { s.record (.delay d) with tmr := delayTimer d }
  | .silent => k { s.record (.delay d) with tmr := delayTimer d }
  | .reset .inside => s.cutShort.record (.delay d)
  | .reset .before => s.cutShort
  | .reset .between => s.cutShort

/-! ## The command port (R46, R61) -/

/-- What the block accepts next, as sampled on its ports, with the state in which it has been taken: nothing
while the port is not ready or nothing is presented. -/
def State.fetch (s : State) : Option (Presented × State) :=
  match s.queue with
  | [] => none
  | p :: q => if s.cmdReady then some (p.onPorts s.params.num.fw, { s with queue := q }) else none

/-- The environment asserts the reset input before anything is accepted: the reset comes between operations,
or there is nothing that could be accepted (R170). -/
def State.resetDue (s : State) : Bool :=
  match s.draw with
  | .answer _ => false
  | .silent => false
  | .reset .between => true
  | .reset .before => s.fetch.isNone
  | .reset .inside => s.fetch.isNone

/-- The answer to something presented that the decoder rejects. An illegal command word is refused with
BAD_COMMAND (R63); the two others concern no command, and there the model stops. -/
def reject (e : DecodeError) (s : State) : Host.Outcome State Fault Refusal :=
  match e with
  | .reservedBits => .next (refuse .badCommand s.startOp)
  | .unusedImm => .next (refuse .badCommand s.startOp)
  | .foreignAddress => .fault .foreignAddress
  | .writeOnlyBits => .fault .writeOnlyBits

/-- The state in which `p` is presented and accepted by the next step: the reset input is released and not
about to be asserted, and the command port is ready. -/
def State.present (s : State) (p : Presented) : State :=
  { s with
    queue := p :: s.queue, seq := .idle, pending := none, resetPin := false
    script := s.script.dropWhile Draw.isReset }

end Sys2Proof.Machine
end

