-- ==== Sys2Proof/Machine/Solver.lean ====
section
/-! DEFINITION. TemperatureSolver (spec/44_temperature_solver.md): the stages over any numerics `N` and any
coefficients `P`, in the order of evaluation of D2, and the four operations on patterns at the block's own
configuration. "Pure, deterministic, no I/O". -/

namespace Sys2Proof.Machine

variable {F : Type}

/-- Step 1 (R123): `Rrtd = RawRatio * referenceResistance / 32768`, left to right. -/
def resist (N : Num F) (ratio : Ratio) (rref : F) : F :=
  N.fdiv (N.fmul (N.ofNat ratio) rref) (N.lit (intLit 32768))

/-- `Z1 = -A` (R122). -/
def z1 (N : Num F) : F := N.fneg (N.lit cvdA)

/-- `Z2 = A² - 4B` (R122). -/
def z2 (N : Num F) : F :=
  N.fsub (N.fmul (N.lit cvdA) (N.lit cvdA)) (N.fmul (N.lit (intLit 4)) (N.lit cvdB))

/-- `Z3 = 4B / Rnominal` (R122). -/
def z3 (N : Num F) (rnom : F) : F := N.fdiv (N.fmul (N.lit (intLit 4)) (N.lit cvdB)) rnom

/-- `Z4 = 2B` (R122). -/
def z4 (N : Num F) : F := N.fmul (N.lit (intLit 2)) (N.lit cvdB)

/-- Step 2 without its comparison (R124): `T = (sqrt(Z2 + Z3·Rrtd) + Z1) / Z4`. -/
def cvd (N : Num F) (rrtd rnom : F) : F :=
  N.fdiv (N.fadd (N.fsqrt (N.fadd (z2 N) (N.fmul (z3 N rnom) rrtd))) (z1 N)) (z4 N)

/-- The normalized ratio of step 3: `r = 100 · Rrtd / Rnominal`, left to right (R125). -/
def polyRatio (N : Num F) (rrtd rnom : F) : F := N.fdiv (N.fmul (N.lit (intLit 100)) rrtd) rnom

/-- The quintic of step 3 at `r` (R125): powers by repeated multiplication, terms added in the printed
order. -/
def quintic (N : Num F) (P : PolyC) (r : F) : F :=
  let r2 := N.fmul r r
  let r3 := N.fmul r2 r
  let r4 := N.fmul r3 r
  let r5 := N.fmul r4 r
  let t1 := N.fadd (N.lit P.c0) (N.fmul (N.lit P.c1) r)
  let t2 := N.fadd t1 (N.fmul (N.lit P.c2) r2)
  let t3 := N.fadd t2 (N.fmul (N.lit P.c3) r3)
  let t4 := N.fadd t3 (N.fmul (N.lit P.c4) r4)
  N.fadd t4 (N.fmul (N.lit P.c5) r5)

/-- Step 3 (R125). -/
def poly (N : Num F) (P : PolyC) (rrtd rnom : F) : F := quintic N P (polyRatio N rrtd rnom)

/-- The branch test (R126): "If result > 0, return it", strictly. -/
def takesCvd (N : Num F) (t : F) : Bool := N.fgt t (N.lit (intLit 0))

/-- The whole solver (R127). -/
def solve (N : Num F) (P : PolyC) (ratio : Ratio) (rref rnom : F) : F :=
  let rrtd := resist N ratio rref
  let tc := cvd N rrtd rnom
  if takesCvd N tc then tc else poly N P rrtd rnom

/-! ## The stages on patterns, at a block's configuration (R5) -/

/-- RESIST at a configuration. -/
def resistOn (p : Params) (ratio : Ratio) (rref : Flt) : Flt :=
  (resist p.num.num ratio (p.num.value rref)).toNat

/-- CVD at a configuration. -/
def cvdOn (p : Params) (rrtd rnom : Flt) : Flt := (cvd p.num.num (p.num.value rrtd) (p.num.value rnom)).toNat

/-- POLY at a configuration. -/
def polyOn (p : Params) (rrtd rnom : Flt) : Flt :=
  (poly p.num.num p.polyC (p.num.value rrtd) (p.num.value rnom)).toNat

/-- The whole solver at a configuration. -/
def solveOn (p : Params) (ratio : Ratio) (rref rnom : Flt) : Flt :=
  (solve p.num.num p.polyC ratio (p.num.value rref) (p.num.value rnom)).toNat

/-! ## The operations -/

/-- SOLVE ratio, Rref, Rnom (R127): the temperature in `rf`, in every LIFE state. -/
def execSolve (ratio : Ratio) (rref rnom : Flt) (s : State) : Host.Outcome State Fault Refusal :=
  .next (s.startOp.returnOk (.float (solveOn s.params ratio rref rnom)))

/-- RESIST ratio, Rref (R123). -/
def execResist (ratio : Ratio) (rref : Flt) (s : State) : Host.Outcome State Fault Refusal :=
  .next (s.startOp.returnOk (.float (resistOn s.params ratio rref)))

/-- CVD Rrtd, Rnom (R124). -/
def execCvd (rrtd rnom : Flt) (s : State) : Host.Outcome State Fault Refusal :=
  .next (s.startOp.returnOk (.float (cvdOn s.params rrtd rnom)))

/-- POLY Rrtd, Rnom (R125). -/
def execPoly (rrtd rnom : Flt) (s : State) : Host.Outcome State Fault Refusal :=
  .next (s.startOp.returnOk (.float (polyOn s.params rrtd rnom)))

end Sys2Proof.Machine
end

