-- ==== Sys2Proof/Machine/Acquisition.lean ====
section
/-! DEFINITION. AcquisitionController (spec/42_acquisition.md): the four steps, the sequence, GETRAW and
GETTEMP. `c` is always "`cfg` as it was before step 1". -/

namespace Sys2Proof.Machine

/-- Step 1, state BiasWarmup (R91). -/
def biasStep (c : Configuration) (s : State) (k : State → State) : State :=
  let s := s.enter .biasWarmup
  if needsBias c then cfgWr (biasByte c) s fun s => delay .bias s k else k s

/-- Step 2, state ConversionPending (R92): the byte written is the byte read with bit 5 set. -/
def conversionStep (c : Configuration) (s : State) (k : State → State) : State :=
  let s := s.enter .conversionPending
  if needsConversion c then
    cfgRd s fun cb s => cfgWr (oneShotByte cb) s fun s => delay .conv s k
  else k s

/-- Step 3, state ReadBack (R93), never skipped. -/
def readBackStep (s : State) (k : Ratio → State → State) : State :=
  rtdRd (s.enter .readBack) fun w => k (ratioOf w)

/-- Step 4, state Restore (R94), never skipped; then Idle. -/
def restoreStep (c : Configuration) (s : State) (k : State → State) : State :=
  cfgWr (encodeConfig c) (s.enter .restore) fun s => k (s.enter .idle)

/-- The acquisition sequence (R90, R95). -/
def acquireRatio (s : State) (k : Ratio → State → State) : State :=
  let c := s.cfg
  biasStep c s fun s =>
  conversionStep c s fun s =>
  readBackStep s fun ratio s =>
  restoreStep c s (k ratio)

/-- GETRAW (R90): the RawRatio in `rd[14:0]`. -/
def execGetRaw (s : State) : Host.Outcome State Fault Refusal :=
  .next (needUp s fun s => acquireRatio s fun ratio s => s.returnOk (.ratio ratio))

/-- GETTEMP (R97): GETRAW followed by the solver on the stored RtdParameters. -/
def execGetTemp (s : State) : Host.Outcome State Fault Refusal :=
  .next (needUp s fun s =>
    acquireRatio s fun ratio s => s.returnOk (.float (solveOn s.params ratio s.rref s.rnom)))

end Sys2Proof.Machine
end

