-- ==== Sys2Proof/Machine/Codec.lean ====
section
/-! DEFINITION. ConfigCodec (spec/40_config_codec.md): ENCODE and DECODE, and the two data formats of the
configuration byte. "pure, total functions, no side effects, no failure modes". -/

namespace Sys2Proof.Machine

/-- ENCODE c (R70): the configuration byte in `rd[7:0]`, in every LIFE state. -/
def execEncode (c : Configuration) (s : State) : Host.Outcome State Fault Refusal :=
  .next (s.startOp.returnOk (.byte (encodeConfig c)))

/-- DECODE b (R71): the Configuration in `rd[5:0]`, in every LIFE state. -/
def execDecode (b : Byte) (s : State) : Host.Outcome State Fault Refusal :=
  .next (s.startOp.returnOk (.config (decodeConfig b)))

/-- CFGBYTE.encode, run alone: the codec forms the byte of `c` (R70). No command, so no response. -/
def execCfgByteEncode (c : Configuration) (s : State) : Host.Outcome State Fault Refusal :=
  .next (s.startOp.deliver (.byte (encodeConfig c)))

/-- CFGBYTE.decode, run alone: the codec reads the fields of `b` (R71). No command, so no response. -/
def execCfgByteDecode (b : Byte) (s : State) : Host.Outcome State Fault Refusal :=
  .next (s.startOp.deliver (.config (decodeConfig b)))

end Sys2Proof.Machine
end

