-- ==== Sys2Proof/Machine/FaultManager.lean ====
section
/-! DEFINITION. FaultManager (spec/43_fault_manager.md): CLEARFAULT and READFAULT. -/

namespace Sys2Proof.Machine

/-- CLEARFAULT (R110): the byte read is written back with bit 1 cleared. -/
def execClearFault (s : State) : Host.Outcome State Fault Refusal :=
  .next (needUp s fun s => cfgRd s fun cb s => cfgWr (clearFaultByte cb) s fun s => s.returnOk .none)

/-- READFAULT (R111): the fault-status byte in `rd[7:0]`, unchanged. -/
def execReadFault (s : State) : Host.Outcome State Fault Refusal :=
  .next (needUp s fun s => faultRd s fun fs s => s.returnOk (.byte fs))

end Sys2Proof.Machine
end

