-- ==== Sys2Proof/Machine/Lifecycle.lean ====
section
/-! DEFINITION. Bring-up, teardown and configuration access (spec/45_lifecycle_config_access.md): BEGIN, END,
SETCONFIG, GETCONFIG; and the two reserved rows of the command word (R63). -/

namespace Sys2Proof.Machine

/-- The registers that BEGIN writes after a successful acquire (R142). -/
def State.bringUp (s : State) (c : Configuration) (rref rnom : Flt) : State :=
  { s with rref := rref, rnom := rnom, cfg := c, life := .up }

/-- BEGIN c, Rref, Rnom (R142): acquire first, then the registers, then the initial configuration write. -/
def execBegin (c : Configuration) (rref rnom : Flt) (s : State) : Host.Outcome State Fault Refusal :=
  .next (needDown s fun s =>
    busAcquire s fun s => cfgWr (encodeConfig c) (s.bringUp c rref rnom) fun s => s.returnOk .none)

/-- What END does last, whatever the release answered (R143, R141). -/
def tornDown (s : State) : State := State.returnOk { s with life := .down } .none

/-- END (R143): Release only from Up, its answer ignored; always OK. -/
def execEnd (s : State) : Host.Outcome State Fault Refusal :=
  .next (if s.life = .up then busRelease s.startOp tornDown else tornDown s.startOp)

/-- SETCONFIG c (R144): `CFG` is written before the transaction. -/
def execSetConfig (c : Configuration) (s : State) : Host.Outcome State Fault Refusal :=
  .next (needUp s fun s => cfgWr (encodeConfig c) { s with cfg := c } fun s => s.returnOk .none)

/-- GETCONFIG (R145): the decoding of the byte that the chip returns; `CFG` is not read. -/
def execGetConfig (s : State) : Host.Outcome State Fault Refusal :=
  .next (needUp s fun s => cfgRd s fun cb s => s.returnOk (.config (decodeConfig cb)))

/-- RESERVED_E (R63): refused with BAD_COMMAND, in every LIFE state, whatever the other bits are. -/
def execReservedE (_cw : CmdWord) (s : State) : Host.Outcome State Fault Refusal :=
  .next (refuse .badCommand s.startOp)

/-- RESERVED_F (R63): refused with BAD_COMMAND, in every LIFE state, whatever the other bits are. -/
def execReservedF (_cw : CmdWord) (s : State) : Host.Outcome State Fault Refusal :=
  .next (refuse .badCommand s.startOp)

end Sys2Proof.Machine
end

