-- ==== Sys2Proof/Machine/Transport.lean ====
section
/-! DEFINITION. The four transactions of the request port (spec/41_register_transport.md) and the raw word's
format (R55), each run alone. They are no commands: the operations issue the transactions and form the
ratio inside their own rules, over the same shared operations. A transaction that fails raises
TransportError as it does inside an operation. -/

namespace Sys2Proof.Machine

/-- CFG_WR b (R81). -/
def execCfgWr (b : Byte) (s : State) : Host.Outcome State Fault Refusal :=
  .next (cfgWr b s.startOp fun s => s.deliver .written)

/-- CFG_RD (R82): the byte the chip returned. -/
def execCfgRd (s : State) : Host.Outcome State Fault Refusal :=
  .next (cfgRd s.startOp fun cb s => s.deliver (.byte cb))

/-- RTD_RD (R83): the raw word, first byte most significant. -/
def execRtdRd (s : State) : Host.Outcome State Fault Refusal :=
  .next (rtdRd s.startOp fun w s => s.deliver (.raw w))

/-- FAULT_RD (R84): the fault-status byte, all eight bits as they came. -/
def execFaultRd (s : State) : Host.Outcome State Fault Refusal :=
  .next (faultRd s.startOp fun fs s => s.deliver (.byte fs))

/-- RAW16 (R53, R55): the ratio of a raw word. -/
def execRaw16 (w : Raw16) (s : State) : Host.Outcome State Fault Refusal :=
  .next (s.startOp.deliver (.ratio (ratioOf w)))

end Sys2Proof.Machine
end

