-- ==== Sys2Proof/Machine/Dispatch.lean ====
section
/-! DEFINITION. exec: one arm for each constructor of Instr, each one direct call of its meaning. -/

namespace Sys2Proof.Machine

def exec (i : Instr) (s : State) : Host.Outcome State Fault Refusal :=
  match i with
  | .encode c => Sys2Proof.Machine.execEncode c s
  | .decode b => Sys2Proof.Machine.execDecode b s
  | .beginOp c rref rnom => Sys2Proof.Machine.execBegin c rref rnom s
  | .endOp => Sys2Proof.Machine.execEnd s
  | .setConfig c => Sys2Proof.Machine.execSetConfig c s
  | .getConfig => Sys2Proof.Machine.execGetConfig s
  | .clearFault => Sys2Proof.Machine.execClearFault s
  | .readFault => Sys2Proof.Machine.execReadFault s
  | .getRaw => Sys2Proof.Machine.execGetRaw s
  | .getTemp => Sys2Proof.Machine.execGetTemp s
  | .solve ratio rref rnom => Sys2Proof.Machine.execSolve ratio rref rnom s
  | .resist ratio rref => Sys2Proof.Machine.execResist ratio rref s
  | .cvd rrtd rnom => Sys2Proof.Machine.execCvd rrtd rnom s
  | .poly rrtd rnom => Sys2Proof.Machine.execPoly rrtd rnom s
  | .reservedE cw => Sys2Proof.Machine.execReservedE cw s
  | .reservedF cw => Sys2Proof.Machine.execReservedF cw s
  | .cfgWr b => Sys2Proof.Machine.execCfgWr b s
  | .cfgRd => Sys2Proof.Machine.execCfgRd s
  | .rtdRd => Sys2Proof.Machine.execRtdRd s
  | .faultRd => Sys2Proof.Machine.execFaultRd s
  | .cfgByteEncode c => Sys2Proof.Machine.execCfgByteEncode c s
  | .cfgByteDecode b => Sys2Proof.Machine.execCfgByteDecode b s
  | .raw16 w => Sys2Proof.Machine.execRaw16 w s

end Sys2Proof.Machine
end

