-- ==== Sys2Proof/Machine/Step.lean ====
section
/-! DEFINITION. The step: the release of the reset input, if it is asserted; its assertion, if it is due;
otherwise the next command, if the port accepts one, run from acceptance to its response, or to the reset
that ends it; otherwise nothing happens. -/

namespace Sys2Proof.Machine

/-- One step. While the reset input is not asserted, a block whose port is not ready (R61, R178), or to
which nothing is presented (R163), stays as it is. -/
def step (s : State) : Host.Outcome State Fault Refusal :=
  if s.resetPin then .next s.releaseReset
  else if s.resetDue then .next s.cutShort
  else
    match s.fetch with
    | none => .next s
    | some (p, t) =>
      match decode p with
      | .ok i => exec i t
      | .error e => reject e t

/-- The state whose next step runs the instruction of a table word. -/
def State.withFetchWord (s : State) (nbits w : Nat) : State :=
  match tableItem nbits w with
  | none => s
  | some p => s.present p

end Sys2Proof.Machine
end

