-- ==== Sys2Proof/Machine/RefChip.lean ====
section
/-! DEFINITION. The reference chip of R37: "a test fixture of this spec and is not a description of the chip".
It is no part of the block. It is written as a check of an event history: whether the chip could have given
the answers recorded, and what it then holds. A claim that needs a well-behaved chip takes that as its
premise (R36). -/

namespace Sys2Proof.Machine

/-- The three values of the reference chip. -/
structure RefChip where
  cfgreg   : Byte
  rtdreg   : Raw16
  faultreg : Byte
  deriving DecidableEq, Repr

/-- A write of `b` at `ADDR_CONFIG` that succeeds: "sets `cfgreg <- b & 0xDD`". -/
def RefChip.written (chip : RefChip) (b : Byte) : RefChip := { chip with cfgreg := b &&& 0xDD#8 }

/-- The bytes that the chip returns to a read at an index; `none` at an index it does not have. -/
def RefChip.returned (chip : RefChip) (r : Request) : Option (List Byte) :=
  if r = Request.read Config.addrConfig 1 then some [chip.cfgreg]
  else if r = Request.read Config.addrRtd 2 then
    some [chip.rtdreg.extractLsb' 8 8, chip.rtdreg.extractLsb' 0 8]
  else if r = Request.read Config.addrFault 1 then some [chip.faultreg]
  else none

/-- The chip after one event; `none` if it does not give the answer recorded. A failed or unanswered
transaction, a delay and the bus resource leave it as it was. -/
def RefChip.after (chip : RefChip) : Event → Option RefChip
  | .txn r (.ok data) =>
    match r.dir with
    | .read => if chip.returned r = some data then some chip else none
    | .write =>
      match r.payload with
      | [b] => if r = Request.write Config.addrConfig b then some (chip.written b) else none
      | _ => none
  | _ => some chip

/-- The chip after a history; `none` if it does not give the answers recorded. -/
def RefChip.replay (chip : RefChip) : List Event → Option RefChip
  | [] => some chip
  | e :: es =>
    match chip.after e with
    | none => none
    | some chip' => chip'.replay es

end Sys2Proof.Machine
end

