-- ==== Sys2Proof/Safety.lean ====
section
/-! DEFINITION. The vocabulary of the claims: what a settled state is, which requests and events the rules
allow, the event sequences of an acquisition, the state an operation leaves, and the values that the
patterns of the default numerics and the exact real numbers stand for. -/

namespace Sys2Proof

/-! ## Instructions -/

/-- The six operations that compute on their operands alone (R73, spec/44_temperature_solver.md). -/
def Instr.isPure : Instr → Bool
  | .encode _ | .decode _ | .solve _ _ _ | .resist _ _ | .cvd _ _ | .poly _ _ => true
  | _ => false

/-- The operations that need `LIFE = Up` (R61 check 3). -/
def Instr.needsUp : Instr → Bool
  | .setConfig _ | .getConfig | .clearFault | .readFault | .getRaw | .getTemp => true
  | _ => false

/-- The operations that use the operand port `fa` (R57). -/
def Instr.usesFa : Instr → Bool
  | .beginOp _ _ _ | .solve _ _ _ | .resist _ _ | .cvd _ _ | .poly _ _ => true
  | _ => false

/-- The operations that use the operand port `fb` (R57). -/
def Instr.usesFb : Instr → Bool
  | .beginOp _ _ _ | .solve _ _ _ | .cvd _ _ | .poly _ _ => true
  | _ => false

/-- The fourteen operations (R60). -/
def Instr.isOperation : Instr → Bool
  | .encode _ | .decode _ | .beginOp _ _ _ | .endOp | .setConfig _ | .getConfig | .clearFault | .readFault
  | .getRaw | .getTemp | .solve _ _ _ | .resist _ _ | .cvd _ _ | .poly _ _ => true
  | _ => false

end Sys2Proof

namespace Sys2Proof.Machine

/-! ## States -/

/-- The block is in reset, or just out of it: `LIFE`, `STATE` and `TMR` have the values of R20, nothing is
outstanding (R181) and no response is given (R170). -/
abbrev State.AtReset (s : State) : Prop :=
  s.life = .down ∧ s.seq = .idle ∧ s.tmr = 0 ∧ s.pending = none ∧ s.resp = none

/-- What holds of the block between steps (R13, R14, R16, R62, R170, R181): no delay runs; with no answer
outstanding `STATE` is Idle; while an answer is outstanding no response stands; while the reset input is
asserted the block is in reset; `STATE` leaves Idle only while `LIFE` is Up; an acquire is outstanding only
while `LIFE` is Down; and the registers of type `F` hold patterns of `FW` bits (R12). -/
abbrev State.Settled (s : State) : Prop :=
  s.tmr = 0 ∧ (s.pending = none → s.seq = .idle) ∧
    (s.pending ≠ none → s.resp = none) ∧ (s.resetPin = true → s.AtReset) ∧
    (s.seq ≠ .idle → s.life = .up) ∧ (s.pending = some .acquire → s.life = .down) ∧
    s.rref < 2 ^ s.params.num.fw ∧ s.rnom < 2 ^ s.params.num.fw

/-- Of the inputs to come, the one that follows `n` draws is no reset before the response: an operation that
makes `n` draws is not ended by a reset when it has made them (R170). -/
abbrev State.undisturbed (s : State) (n : Nat) : Prop := (s.upcoming n).endsOperation = false

/-- The state that an operation leaves which ends with a response: the response, the history and the draws it
made are new, everything else is as before. -/
def State.ended (s : State) (st : Status) (r : Result) (events : List Event) (walk : List SeqState)
    (draws : Nat) : State :=
  { s with
    resp := some ⟨st, r⟩, events := events, walk := walk, micro := none
    script := s.script.drop draws, draws := s.draws + draws }

/-- The state that a row which is no command leaves when it is run alone and nothing fails. -/
def State.delivered (s : State) (m : MicroOut) (events : List Event) (draws : Nat) : State :=
  { s with
    resp := none, events := events, walk := [], micro := some m
    script := s.script.drop draws, draws := s.draws + draws }

/-- The registers of R10. -/
def State.registers (s : State) : Configuration × Flt × Flt × Life × SeqState × Timer :=
  (s.cfg, s.rref, s.rnom, s.life, s.seq, s.tmr)

/-- The environment answers a draw with success. -/
def Draw.isOk : Draw → Bool
  | .answer (.ok _ _) => true
  | _ => false

/-- The `n` draws to come are all answered with success. -/
abbrev State.okDraws (s : State) (n : Nat) : Prop := ∀ k < n, (s.upcoming k).isOk = true

/-- The bytes of a successful answer; 0 where there is none. -/
def Draw.bytes : Draw → Byte × Byte
  | .answer (.ok d0 d1) => (d0, d1)
  | _ => (0, 0)

/-! ## Requests and events -/

/-- The four transaction shapes that the block ever issues (R81 to R84). -/
def Request.isOwn (r : Request) : Prop :=
  (∃ b, r = Request.write Config.addrConfig b) ∨ r = Request.read Config.addrConfig 1 ∨
    r = Request.read Config.addrRtd 2 ∨ r = Request.read Config.addrFault 1

/-- `W(CONFIG, b)` that succeeded. -/
def wrote (b : Byte) : Event := .txn (Request.write Config.addrConfig b) (.ok [])

/-- `R(CONFIG, 1) -> cb`. -/
def readConfig (cb : Byte) : Event := .txn (Request.read Config.addrConfig 1) (.ok [cb])

/-- `R(RTD, 2) -> d0 d1`. -/
def readRtd (d0 d1 : Byte) : Event := .txn (Request.read Config.addrRtd 2) (.ok [d0, d1])

/-- `R(FAULT, 1) -> fs`. -/
def readFaultStatus (fs : Byte) : Event := .txn (Request.read Config.addrFault 1) (.ok [fs])

/-- The same event with another outcome. -/
def Event.withOutcome : Event → BusOutcome → Event
  | .txn r _, o => .txn r o
  | .delay k, _ => .delay k
  | .acquire _, o => .acquire o
  | .release _, o => .release o

/-- The error value of an event at which an operation aborts. A release that fails is no such event (R141). -/
def Event.failedWith : Event → Option ErrVal
  | .txn _ (.err e) => some e
  | .acquire (.err e) => some e
  | _ => none

/-- A transaction that was answered with success. -/
def Event.succeeded : Event → Bool
  | .txn _ (.ok _) => true
  | _ => false

/-- The request of a transaction, if the event is one. -/
def Event.request : Event → Option Request
  | .txn r _ => some r
  | _ => none

/-- The four event sequences of R98, by `(CFG.vbias, CFG.auto)`: `cb` is the byte of the configuration read,
`d0` and `d1` are the bytes of the raw read. -/
def acquisitionEvents (c : Configuration) (cb d0 d1 : Byte) : List Event :=
  match c.vbias, c.auto with
  | false, false =>
    [wrote (encodeConfig c ||| 0x80#8), .delay .bias, readConfig cb, wrote (cb ||| 0x20#8), .delay .conv,
      readRtd d0 d1, wrote (encodeConfig c)]
  | false, true => [wrote (encodeConfig c ||| 0x80#8), .delay .bias, readRtd d0 d1, wrote (encodeConfig c)]
  | true, false =>
    [readConfig cb, wrote (cb ||| 0x20#8), .delay .conv, readRtd d0 d1, wrote (encodeConfig c)]
  | true, true => [readRtd d0 d1, wrote (encodeConfig c)]

/-- The number of transactions of each sequence (R98). -/
def acquisitionDraws (c : Configuration) : Nat :=
  match c.vbias, c.auto with
  | false, false => 5
  | false, true => 3
  | true, false => 4
  | true, true => 2

/-- Which draw answers the configuration read of step 2, where there is one. -/
def configReadDraw (c : Configuration) : Nat := if c.vbias then 0 else 1

/-- Which draw answers the raw read. -/
def rawReadDraw (c : Configuration) : Nat := acquisitionDraws c - 2

/-- The events of the acquisition that the state is about to make, if every answer is a success. -/
def State.acquisition (s : State) : List Event :=
  acquisitionEvents s.cfg (s.upcoming (configReadDraw s.cfg)).bytes.1
    (s.upcoming (rawReadDraw s.cfg)).bytes.1 (s.upcoming (rawReadDraw s.cfg)).bytes.2

/-- The ratio of the raw word that the acquisition is about to read. -/
def State.acquiredRatio (s : State) : Ratio :=
  BitVec.ofNat 15
    (((s.upcoming (rawReadDraw s.cfg)).bytes.1.toNat * 256 + (s.upcoming (rawReadDraw s.cfg)).bytes.2.toNat) / 2)

/-- The chain of states of an acquisition that does not fail (R95). -/
def fullWalk : List SeqState := [.biasWarmup, .conversionPending, .readBack, .restore, .idle]

/-! ## Numbers -/

/-- The rational number that a value is, if it is finite. -/
def FloatVal.toRat : FloatVal → Option ℚ
  | .fin neg m e => some ((if neg then -1 else 1) * (m : ℚ) * (2 : ℚ) ^ e)
  | _ => none

/-- The rational number of a binary32 pattern, if it is finite. -/
def value32 (x : BitVec 32) : Option ℚ := (fmt32.unpack x.toNat).toRat

/-- A binary32 pattern is a NaN. -/
def isNaN32 (x : BitVec 32) : Prop := fmt32.unpack x.toNat = .nan

/-- The real number of a literal. -/
noncomputable def DecLit.real (l : DecLit) : ℝ :=
  (if l.neg then -1 else 1) * (l.digits : ℝ) * (10 : ℝ) ^ l.exp10

/-- Exact arithmetic over the real numbers as a `NUM`. A claim over it says what the solver's formulas are,
apart from any rounding. -/
noncomputable def realNum : Num ℝ where
  fadd := (· + ·)
  fsub := (· - ·)
  fmul := (· * ·)
  fdiv := (· / ·)
  fsqrt := Real.sqrt
  fneg := fun x => -x
  fgt := fun x y => @decide (y < x) (Classical.propDecidable _)
  ofNat := fun n => (n.toNat : ℝ)
  lit := DecLit.real

end Sys2Proof.Machine
end

