-- ==== Sys2Proof/Certificates/Slice0/Obligations.lean ====
section
/-! DEFINITION. The statements for the provers. Each docstring names the rule of spec/ that it formalises, or
says where it rests on the model's own choice. -/

open Sys2Proof Sys2Proof.Machine

/-! ## Encodings -/

/-- Decoding the words of a well-formed instruction gives it back, with every operand at every value (R52, R54,
R57, R60, and the configuration byte of R51 with both bits of its fault-detection field). -/
def Obligations.DecodeOfEncodeIsTheInstruction : Prop :=
  ∀ i : Instr, i.wf = true → decode (encode i) = .ok i

/-- Each word that is decoded is the word of the instruction decoded, and the instruction is well formed: no
bit of a word, no operand port that the operation uses (R57), and no payload of a write is dropped. Only an
operand port that the operation ignores, and the payload byte beside the address byte of a read, are no part
of the word; the encoder gives 0 for them. -/
def Obligations.EncodeOfDecodeIsTheWord : Prop :=
  (∀ cw fa fb i, decode (.cmd cw fa fb) = .ok i →
    i.wf = true ∧ encode i = .cmd cw (if i.usesFa then fa else 0) (if i.usesFb then fb else 0)) ∧
  (∀ ab payload i, decode (.addrb ab payload) = .ok i →
    i.wf = true ∧ encode i = .addrb ab (match i with | .cfgWr _ => payload | _ => 0)) ∧
  (∀ b i, decode (.cfgbEncode b) = .ok i → i.wf = true ∧ encode i = .cfgbEncode b) ∧
  (∀ b i, decode (.cfgbDecode b) = .ok i → i.wf = true ∧ encode i = .cfgbDecode b) ∧
  (∀ w i, decode (.raw16 w) = .ok i → i.wf = true ∧ encode i = .raw16 w)

/-- No command word is of two rows of the opcode table (R60, R63). -/
def Obligations.CommandRowsAreDisjoint : Prop :=
  (operationRows ++ reservedRows).Pairwise
    (fun r r' => ∀ cw : CmdWord, ¬ (r.accepts cw = true ∧ r'.accepts cw = true))

/-- R63: a command word of no operation's row (a reserved OP, a nonzero reserved bit, a nonzero unused bit of
IMM) is refused with BAD_COMMAND in every LIFE state, changing no register and issuing no event, if no reset
comes; and each word of an operation's row is decoded to an operation. -/
def Obligations.IllegalCommandWordsAnswerBadCommand : Prop :=
  (∀ (s : State) cw fa fb q, s.resetPin = false → s.draw.isReset = false → s.cmdReady = true →
    s.queue = .cmd cw fa fb :: q →
    (∀ r ∈ operationRows, r.accepts cw = false) →
    step s = .next (State.ended { s with queue := q } .badCommand .none [] [] 0)) ∧
  (∀ cw fa fb, ∀ r ∈ operationRows, r.accepts cw = true →
    ∃ i, decode (.cmd cw fa fb) = .ok i ∧ i.isOperation = true)

/-- Words written out from R57, R60 and R52 (the spec's V-C, V-D, V-W and P1 to P4 rows) decode to the
instructions they stand for. -/
def Obligations.WordsOfTheSpecDecode : Prop :=
  ∀ fa fb : Flt,
    decode (.cmd 0x0000002C fa fb) = .ok (.encode ⟨true, false, .three, .runManual, .hz60⟩) ∧
    decode (.cmd 0x10000098 fa fb) = .ok (.decode 0x98) ∧
    decode (.cmd 0x20000009 fa fb) = .ok (.beginOp ⟨false, false, .three, .noAction, .hz50⟩ fa fb) ∧
    decode (.cmd 0x30000000 fa fb) = .ok .endOp ∧
    decode (.cmd 0x60000000 fa fb) = .ok .clearFault ∧
    decode (.cmd 0x90000000 fa fb) = .ok .getTemp ∧
    decode (.cmd 0xA0007FFF fa fb) = .ok (.solve 32767 fa fb) ∧
    decode (.cmd 0xE0000000 fa fb) = .ok (.reservedE 0xE0000000) ∧
    decode (.cmd 0x50010000 fa fb) = .error .reservedBits ∧
    decode (.cmd 0xA0008000 fa fb) = .error .unusedImm

/-- R54: the address byte has the write-select in bit 7 and the register index in bits 6 to 0. -/
def Obligations.AddressByteCarriesSelectAndIndex : Prop :=
  ∀ a : RegIndex,
    (writeAddrByte a).toNat = 128 + a.toNat ∧ (readAddrByte a).toNat = a.toNat

/-- R34: the three register addresses are pairwise distinct, whatever the open parameters are. -/
def Obligations.RegisterAddressesAreDistinct : Prop :=
  Config.addrConfig ≠ Config.addrRtd ∧ Config.addrConfig ≠ Config.addrFault ∧
    Config.addrRtd ≠ Config.addrFault

/-- R55 with R39: the byte received first is the more significant one, and the ratio is the raw word without
its low bit, whatever the word is. Which byte is the more significant is the decision D6 of the spec (log
entry 13). -/
def Obligations.RatioIsTheRawWordHalved : Prop :=
  ∀ d0 d1 : Byte,
    (assembleRaw d0 d1).toNat = d0.toNat * 256 + d1.toNat ∧
    (ratioOf (assembleRaw d0 d1)).toNat = (d0.toNat * 256 + d1.toNat) / 2

/-! ## ConfigCodec -/

/-- R70: ENCODE (OP 0x0) answers OK with the byte whose bits are the fields, bits 5 and 1 being 0, in every
state in which no reset comes first, and moves nothing else; the 64 Configurations give exactly the bytes
with bits 5 and 1 clear, one each. That Automatic, RunManual and FinishManual are 1, 2 and 3 in bits 3 and 2
is the decision D18 of the spec (log entry 20). -/
def Obligations.EncodeAnswersTheConfigurationByte : Prop :=
  (∀ (c : Configuration) fa fb, decode (.cmd ((packCfg6 c).zeroExtend 32) fa fb) = .ok (.encode c)) ∧
  (∀ (c : Configuration) (s : State), s.undisturbed 0 → ∃ b : Byte,
    exec (.encode c) s = .next (s.ended .ok (.byte b) [] [] 0) ∧
    b.getLsbD 7 = c.vbias ∧ b.getLsbD 6 = c.auto ∧ b.getLsbD 5 = false ∧
    b.getLsbD 4 = decide (c.wire = .three) ∧
    (b.getLsbD 3 = decide (c.fdc = .runManual ∨ c.fdc = .finishManual)) ∧
    (b.getLsbD 2 = decide (c.fdc = .automatic ∨ c.fdc = .finishManual)) ∧
    b.getLsbD 1 = false ∧ b.getLsbD 0 = decide (c.filter = .hz50)) ∧
  (∀ c c', encodeConfig c = encodeConfig c' → c = c') ∧
  (∀ b : Byte, b &&& 0x22#8 = 0#8 ↔ ∃ c, encodeConfig c = b)

/-- R71: DECODE answers OK with the Configuration of the byte's bits 7, 6, 4, 2 and 0, in every state in which
no reset comes first, and moves nothing else. That the high bit of the fault-detection field is dropped is
an inference that R71 marks as the spec's own. -/
def Obligations.DecodeAnswersTheFiveFields : Prop :=
  ∀ (b : Byte) (s : State), s.undisturbed 0 → ∃ c : Configuration,
    exec (.decode b) s = .next (s.ended .ok (.config c) [] [] 0) ∧
    c.vbias = b.getLsbD 7 ∧ c.auto = b.getLsbD 6 ∧ (c.wire = .three ↔ b.getLsbD 4 = true) ∧
    c.fdc = (if b.getLsbD 2 then .automatic else .noAction) ∧ (c.filter = .hz50 ↔ b.getLsbD 0 = true)

/-- R72, the laws of the pair, which R72 derives from R70 and R71. -/
def Obligations.CodecRoundTrips : Prop :=
  (∀ c : Configuration,
    decodeConfig (encodeConfig c) =
      { c with
        fdc := match c.fdc with
          | .noAction => .noAction
          | .automatic => .automatic
          | .runManual => .noAction
          | .finishManual => .automatic }) ∧
  (∀ b : Byte, encodeConfig (decodeConfig b) = b &&& 0xD5#8)

/-- R64: the 256 bytes map onto the 32 Configurations whose `fdc` is NoAction or Automatic, eight to each, and
no Configuration is encoded with bit 5 or bit 1 set. -/
def Obligations.EightBytesDecodeToEachConfiguration : Prop :=
  ∀ c : Configuration,
    encodeConfig c &&& 0x22#8 = 0#8 ∧
    ((List.range 256).filter (fun n => decodeConfig (BitVec.ofNat 8 n) = c)).length =
      match c.fdc with
      | .noAction | .automatic => 8
      | .runManual | .finishManual => 0

/-- R73, and the same of the solver's operations (spec/44_temperature_solver.md, header): the response of an
operation that computes on its operands depends on them alone (and on the block's fixed configuration), no
event is issued, and nothing else moves, in every state in which no reset comes first. For ENCODE and
DECODE the configuration plays no part. -/
def Obligations.PureOperationsDependOnOperandsOnly : Prop :=
  (∀ i : Instr, i.isPure = true → ∀ p : Params, ∃ r : Result, ∀ s : State, s.params = p →
    s.undisturbed 0 → exec i s = .next (s.ended .ok r [] [] 0)) ∧
  (∀ i : Instr, (∃ c, i = .encode c) ∨ (∃ b, i = .decode b) → ∃ r : Result, ∀ s : State,
    s.undisturbed 0 → exec i s = .next (s.ended .ok r [] [] 0))

/-! ## Acquisition -/

/-- R90, R93, R95, R98: a GETRAW whose transactions all succeed issues the sequence of its row, answers the
ratio of the raw word, walks the chain of states back to Idle, and changes no register. The two middle
rows of R98 are the spec's own inference. -/
def Obligations.GetRawRunsItsSequence : Prop :=
  ∀ s : State, s.life = .up → s.seq = .idle → s.tmr = 0 → s.okDraws (acquisitionDraws s.cfg) →
    s.undisturbed (acquisitionDraws s.cfg) →
    exec .getRaw s =
      .next (s.ended .ok (.ratio s.acquiredRatio) s.acquisition fullWalk (acquisitionDraws s.cfg))

/-- R97, R98: a GETTEMP whose transactions all succeed issues the same sequence and answers the solver's value
at the stored parameters. -/
def Obligations.GetTempRunsItsSequence : Prop :=
  ∀ s : State, s.life = .up → s.seq = .idle → s.tmr = 0 → s.okDraws (acquisitionDraws s.cfg) →
    s.undisturbed (acquisitionDraws s.cfg) →
    exec .getTemp s =
      .next (s.ended .ok (.float (solveOn s.params s.acquiredRatio s.rref s.rnom))
        s.acquisition fullWalk (acquisitionDraws s.cfg))

/-- R97: GETTEMP (OP 0x9) is GETRAW followed by the solver. Whatever the state and the answers, its events and
its state are those of GETRAW, and its response differs only where GETRAW answers a ratio; where GETRAW
aborts or is refused the solver does not run. -/
def Obligations.GetTempIsGetRawThenSolver : Prop :=
  (∀ fa fb, decode (.cmd 0x90000000 fa fb) = .ok .getTemp) ∧
  ∀ s u : State, exec .getRaw s = .next u →
    (∃ ratio, u.resp = some ⟨.ok, .ratio ratio⟩ ∧
      exec .getTemp s =
        .next { u with resp := some ⟨.ok, .float (solveOn s.params ratio s.rref s.rnom)⟩ }) ∨
    ((∀ r, u.resp ≠ some ⟨.ok, r⟩) ∧ exec .getTemp s = .next u)

/-- R99: when transaction number `k` of the sequence answers `err e`, the history is the sequence up to that
transaction, which stands in it as failed; the response is TRANSPORT_ERROR with `e`; STATE and TMR are
Idle and 0; no other register moves. That CFG is unchanged on an abort is the decision D14 of the spec (log
entry 22), that STATE is Idle the decision D15. -/
def Obligations.FailedTransactionEndsAcquisition : Prop :=
  ∀ (i : Instr) (s : State) (k : Nat) (e : ErrVal), i = .getRaw ∨ i = .getTemp →
    s.life = .up → s.seq = .idle → s.tmr = 0 → k < acquisitionDraws s.cfg → s.okDraws k →
    s.upcoming k = .answer (.err e) → s.undisturbed (k + 1) →
    ∃ before failing after n,
      s.acquisition = before ++ failing :: after ∧ failing.request.isSome = true ∧
      (before.filter fun ev => ev.request.isSome).length = k ∧ 1 ≤ n ∧ n ≤ 4 ∧
      exec i s =
        .next (s.ended .transportError (.error e) (before ++ [failing.withOutcome (.err e)])
          (fullWalk.take n) (k + 1))

/-- R95: an acquisition walks the chain of states in order, all of it when it succeeds, a part of it from its
beginning otherwise, and with a response STATE is Idle; no other instruction moves STATE but to Idle. The
record of the states is the model's own field (log entry 16). -/
def Obligations.StateWalksTheChain : Prop :=
  ∀ (i : Instr) (s t : State), exec i s = .next t →
    (i = .getRaw ∨ i = .getTemp →
      t.walk <+: fullWalk ∧ ((∃ r, t.resp = some ⟨.ok, r⟩) → t.walk = fullWalk) ∧
      (t.resp.isSome = true → s.life = .up → t.seq = .idle)) ∧
    (i ≠ .getRaw → i ≠ .getTemp → t.walk = [] ∧ (t.seq = s.seq ∨ t.seq = .idle))

/-- R173 with R91, R92: in an acquisition, the event after the bias write is Delay(BIAS), and the event before
the raw read is Delay(CONV) unless auto-conversion is on. -/
def Obligations.DelaysStandWhereTheyMust : Prop :=
  ∀ (i : Instr) (s t : State), i = .getRaw ∨ i = .getTemp → exec i s = .next t →
    (s.cfg.vbias = false → ∀ e0 e1 rest, t.events = e0 :: e1 :: rest → e1 = .delay .bias) ∧
    (s.cfg.auto = false → ∀ before o rest,
      t.events = before ++ .txn (Request.read Config.addrRtd 2) o :: rest →
      ∃ before', before = before' ++ [.delay .conv])

/-- R53: the fault flag, bit 0 of the raw word, is dropped without a test: two runs that differ in it alone
give the same response and leave the same registers. -/
def Obligations.FaultFlagIsDiscarded : Prop :=
  ∀ (i : Instr) (s : State) (before after : List Draw) (d0 d1 : Byte), i = .getRaw ∨ i = .getTemp →
    before.length = rawReadDraw s.cfg →
    ∀ t t' : State,
      exec i { s with script := before ++ .answer (.ok d0 d1) :: after } = .next t →
      exec i { s with script := before ++ .answer (.ok d0 (d1 ^^^ 1#8)) :: after } = .next t' →
      t'.resp = t.resp ∧ t'.registers = t.registers

/-- R96: each delay lasts at least its bound (10 ms and 65 ms, in picoseconds); the timer holds its load, is
not zero before as many cycles as the load have passed, and is zero then. The clock period and the loads
are the model's open parameters (log entry 8). -/
def Obligations.DelaysReachTheirBounds : Prop :=
  10000000000 ≤ Config.cycles .bias * Config.tclk ∧ 65000000000 ≤ Config.cycles .conv * Config.tclk ∧
  ∀ k : DelayKind, Config.cycles k < 2 ^ TW ∧
    timerRun (Config.cycles k) (BitVec.ofNat TW (Config.cycles k)) = 0 ∧
    ∀ n < Config.cycles k, timerRun n (BitVec.ofNat TW (Config.cycles k)) ≠ 0

/-- R16, R161: the timer of the model is the timer of R16 run cycle by cycle: it counts down by one in each
cycle while nonzero and stays at zero. -/
def Obligations.TimerCountsDownCycleByCycle : Prop :=
  ∀ (n : Nat) (t : Timer), timerAfter n t = timerRun n t ∧ (timerRun n t).toNat = t.toNat - n

/-! ## FaultManager -/

/-- R110: CLEARFAULT (OP 0x6, needs LIFE = Up) reads the configuration register, writes the byte read with bit
1 cleared and every other bit as read, and answers OK. A failed read issues no write; a failure is answered
with the transport's error value. No register moves. That bit 1 is written as 0 is the resolution C6 and
the decision D19 of the spec (log entry 19); that it is refused outside Up is the decision D9 (R61, log
entry 21). -/
def Obligations.ClearFaultWritesTheByteReadWithBitOneCleared : Prop :=
  (∀ fa fb, decode (.cmd 0x60000000 fa fb) = .ok .clearFault) ∧
  ∀ s : State,
    (s.life ≠ .up → s.undisturbed 0 → exec .clearFault s = .next (s.ended .notReady .none [] [] 0)) ∧
    (s.life = .up →
      (∀ e, s.seq = .idle → s.tmr = 0 → s.upcoming 0 = .answer (.err e) → s.undisturbed 1 →
        exec .clearFault s =
          .next (s.ended .transportError (.error e) [(readConfig 0).withOutcome (.err e)] [] 1)) ∧
      ∀ cb x, s.upcoming 0 = .answer (.ok cb x) → s.undisturbed 2 →
        ∃ b : Byte, b.getLsbD 1 = false ∧ (∀ i, i ≠ 1 → b.getLsbD i = cb.getLsbD i) ∧
          (∀ y z, s.upcoming 1 = .answer (.ok y z) →
            exec .clearFault s = .next (s.ended .ok .none [readConfig cb, wrote b] [] 2)) ∧
          (∀ e, s.seq = .idle → s.tmr = 0 → s.upcoming 1 = .answer (.err e) →
            exec .clearFault s =
              .next (s.ended .transportError (.error e) [readConfig cb, (wrote b).withOutcome (.err e)] [] 2)))

/-- R111: READFAULT (OP 0x7, needs LIFE = Up) answers the fault-status byte as it came, all eight bits; the
history is that one read; no register moves. Outside Up it is refused with NOT_READY (R61), which is the
decision D9 of the spec (log entry 21). -/
def Obligations.ReadFaultPassesTheByteThrough : Prop :=
  (∀ fa fb, decode (.cmd 0x70000000 fa fb) = .ok .readFault) ∧
  ∀ s : State,
    (s.life ≠ .up → s.undisturbed 0 → exec .readFault s = .next (s.ended .notReady .none [] [] 0)) ∧
    (s.life = .up → s.undisturbed 1 →
      (∀ fs x, s.upcoming 0 = .answer (.ok fs x) →
        exec .readFault s = .next (s.ended .ok (.byte fs) [readFaultStatus fs] [] 1)) ∧
      (∀ e, s.seq = .idle → s.tmr = 0 → s.upcoming 0 = .answer (.err e) →
        exec .readFault s =
          .next (s.ended .transportError (.error e) [(readFaultStatus 0).withOutcome (.err e)] [] 1)))

/-! ## Bring-up, teardown, configuration access -/

/-- R142: BEGIN (OP 0x2, refused unless LIFE = Down) acquires, writes RREF, RNOM, CFG and LIFE, then issues the
initial configuration write; a failed acquire makes the instance Dead, writes no other register and issues
no write; a failed write leaves it Up. The parameters are not checked. That a failed write leaves Up with
the registers written is the decision D11 of the spec, and the refusal is D10 (log entry 21). -/
def Obligations.BeginBringsUp : Prop :=
  ∀ (c : Configuration) (rref rnom : Flt),
    decode (.cmd (0x20000000 ||| (packCfg6 c).zeroExtend 32) rref rnom) = .ok (.beginOp c rref rnom) ∧
    ∀ s : State,
      (s.life ≠ .down → s.undisturbed 0 →
        exec (.beginOp c rref rnom) s = .next (s.ended .notReady .none [] [] 0)) ∧
      (s.life = .down →
        (∀ x y z w, s.upcoming 0 = .answer (.ok x y) → s.upcoming 1 = .answer (.ok z w) → s.undisturbed 2 →
          exec (.beginOp c rref rnom) s =
            .next (State.ended { s with cfg := c, rref := rref, rnom := rnom, life := .up } .ok .none
              [.acquire (.ok []), wrote (encodeConfig c)] [] 2)) ∧
        (∀ e, s.seq = .idle → s.tmr = 0 → s.upcoming 0 = .answer (.err e) → s.undisturbed 1 →
          exec (.beginOp c rref rnom) s =
            .next (State.ended { s with life := .dead } .busInitError (.error e) [.acquire (.err e)] [] 1)) ∧
        (∀ x y e, s.seq = .idle → s.tmr = 0 → s.upcoming 0 = .answer (.ok x y) →
          s.upcoming 1 = .answer (.err e) → s.undisturbed 2 →
          exec (.beginOp c rref rnom) s =
            .next (State.ended { s with cfg := c, rref := rref, rnom := rnom, life := .up } .transportError
              (.error e) [.acquire (.ok []), (wrote (encodeConfig c)).withOutcome (.err e)] [] 2)))

/-- R143, R141: END (OP 0x3) completes in every LIFE state with OK and LIFE = Down, if no reset comes; a Release
is issued exactly when LIFE was Up, whose answer changes nothing; no transaction is issued; every other
register keeps its value. That END runs from every LIFE state is the decision D34 of the spec (log entry
21); that it also ends where the release is never answered is the model's choice (log entry 18). -/
def Obligations.EndTearsDownFromEveryState : Prop :=
  (∀ fa fb, decode (.cmd 0x30000000 fa fb) = .ok .endOp) ∧
  ∀ s : State,
    (s.life ≠ .up → s.undisturbed 0 →
      exec .endOp s = .next (State.ended { s with life := .down } .ok .none [] [] 0)) ∧
    (s.life = .up → s.undisturbed 1 →
      (∀ r, s.upcoming 0 = .answer r →
        exec .endOp s =
          .next (State.ended { s with life := .down } .ok .none
            [.release (match r with | .ok _ _ => .ok [] | .err e => .err e)] [] 1)) ∧
      (s.upcoming 0 = .silent →
        exec .endOp s =
          .next (State.ended { s with life := .down } .ok .none [.release .unanswered] [] 1)))

/-- R144: SETCONFIG (OP 0x4, needs LIFE = Up) writes CFG, then the encoding of it to the configuration
register; after a failed write CFG is the new value. Two of one Configuration that succeed have the same
history and leave the same registers. That CFG is written before the transaction is the decision D12 of the
spec (log entry 22), and the refusal is D9 (log entry 21). -/
def Obligations.SetConfigWritesRegisterThenChip : Prop :=
  ∀ c : Configuration,
    (∀ fa fb, decode (.cmd (0x40000000 ||| (packCfg6 c).zeroExtend 32) fa fb) = .ok (.setConfig c)) ∧
    (∀ s : State,
      (s.life ≠ .up → s.undisturbed 0 → exec (.setConfig c) s = .next (s.ended .notReady .none [] [] 0)) ∧
      (s.life = .up → s.undisturbed 1 →
        (∀ x y, s.upcoming 0 = .answer (.ok x y) →
          exec (.setConfig c) s =
            .next (State.ended { s with cfg := c } .ok .none [wrote (encodeConfig c)] [] 1)) ∧
        (∀ e, s.seq = .idle → s.tmr = 0 → s.upcoming 0 = .answer (.err e) →
          exec (.setConfig c) s =
            .next (State.ended { s with cfg := c } .transportError (.error e)
              [(wrote (encodeConfig c)).withOutcome (.err e)] [] 1)))) ∧
    (∀ s t u : State, exec (.setConfig c) s = .next t → t.resp = some ⟨.ok, .none⟩ →
      exec (.setConfig c) t = .next u → u.resp = some ⟨.ok, .none⟩ →
      u.events = t.events ∧ u.registers = t.registers)

/-- R145: GETCONFIG (OP 0x5, needs LIFE = Up) answers the decoding of the byte that the chip returns, whatever
CFG is; no register moves. That it reads the chip and not CFG is the decision D13 of the spec (log entry
22), and the refusal is D9 (log entry 21). -/
def Obligations.GetConfigAnswersTheChipsByte : Prop :=
  (∀ fa fb, decode (.cmd 0x50000000 fa fb) = .ok .getConfig) ∧
  ∀ s : State,
    (s.life ≠ .up → s.undisturbed 0 → exec .getConfig s = .next (s.ended .notReady .none [] [] 0)) ∧
    (s.life = .up → s.undisturbed 1 →
      (∀ cb x, s.upcoming 0 = .answer (.ok cb x) →
        exec .getConfig s = .next (s.ended .ok (.config (decodeConfig cb)) [readConfig cb] [] 1)) ∧
      (∀ e, s.seq = .idle → s.tmr = 0 → s.upcoming 0 = .answer (.err e) →
        exec .getConfig s =
          .next (s.ended .transportError (.error e) [(readConfig 0).withOutcome (.err e)] [] 1)))

/-- R61 checks 2 and 3, R153: an operation that LIFE does not admit is answered NOT_READY, if no reset comes
first; no register moves and no event is issued. -/
def Obligations.OperationsNotAdmittedChangeNothing : Prop :=
  ∀ (i : Instr) (s : State),
    (i.needsUp = true ∧ s.life ≠ .up) ∨ ((∃ c x y, i = .beginOp c x y) ∧ s.life ≠ .down) →
    s.undisturbed 0 →
    exec i s = .next (s.ended .notReady .none [] [] 0)

/-! ## The rows that are no commands -/

/-- R81 to R84: each transaction, run alone, issues its one request and delivers what the chip returned, first
byte of the raw read most significant. How a row that is no command is run alone is the model's choice (log
entry 5). -/
def Obligations.TransactionRowsComplete : Prop :=
  ∀ (s : State) (d0 d1 : Byte), s.upcoming 0 = .answer (.ok d0 d1) →
    (∀ b, exec (.cfgWr b) s = .next (s.delivered .written [wrote b] 1)) ∧
    exec .cfgRd s = .next (s.delivered (.byte d0) [readConfig d0] 1) ∧
    exec .rtdRd s =
      .next (s.delivered (.raw (BitVec.ofNat 16 (d0.toNat * 256 + d1.toNat))) [readRtd d0 d1] 1) ∧
    exec .faultRd s = .next (s.delivered (.byte d0) [readFaultStatus d0] 1)

/-- R51, R70, R71, R55: each data format, run alone, delivers what its rule computes and moves nothing else.
How a row that is no command is run alone is the model's choice (log entry 5). -/
def Obligations.DataFormatRowsComplete : Prop :=
  ∀ s : State,
    (∀ c, exec (.cfgByteEncode c) s = .next (s.delivered (.byte (encodeConfig c)) [] 0)) ∧
    (∀ b, exec (.cfgByteDecode b) s = .next (s.delivered (.config (decodeConfig b)) [] 0)) ∧
    (∀ w : Raw16, exec (.raw16 w) s = .next (s.delivered (.ratio (BitVec.ofNat 15 (w.toNat / 2))) [] 0))

/-- R63: the two reserved rows answer BAD_COMMAND in every LIFE state, if no reset comes first, and move nothing
else. -/
def Obligations.ReservedRowsAnswerBadCommand : Prop :=
  ∀ (cw : CmdWord) (s : State), s.undisturbed 0 →
    exec (.reservedE cw) s = .next (s.ended .badCommand .none [] [] 0) ∧
    exec (.reservedF cw) s = .next (s.ended .badCommand .none [] [] 0)

/-! ## Errors and whole-machine rules -/

/-- R154, with R151 and R152: an event that failed is the last one of its operation, every event before it has
completed, and the response, unless a reset comes before it (R170), carries its error value with the status
of its kind; and a response carries an error value only so. -/
def Obligations.AnErrorIsTheLastEvent : Prop :=
  ∀ (i : Instr) (s t : State), exec i s = .next t →
    (∀ before ev after e, t.events = before ++ ev :: after → ev.failedWith = some e →
      after = [] ∧
      (∀ ev' ∈ before, ev' ≠ .acquire .unanswered ∧ ∀ r, ev' ≠ .txn r .unanswered ∧ ev'.failedWith = none) ∧
      (t.resetPin = false →
        t.resp = some ⟨(match ev with | .acquire _ => .busInitError | _ => .transportError), .error e⟩)) ∧
    (∀ st e, t.resp = some ⟨st, .error e⟩ →
      ∃ before ev, t.events = before ++ [ev] ∧ ev.failedWith = some e)

/-- R155: after an error STATE is Idle and TMR is 0; CFG, RREF and RNOM are as they were when the error was
raised, that is new only where SETCONFIG, or BEGIN after its acquire, had written them; LIFE is unchanged
but for BEGIN, which leaves Up after a failed write and Dead after a failed acquire. The command port is
ready again. That a BEGIN whose write fails leaves Up with its registers written (R142) is the decision D11
of the spec (log entry 21), that a SETCONFIG whose write fails leaves CFG new (R144) the decision D12, that
the acquisition leaves CFG the decision D14 (log entry 22), and that STATE is Idle the decision D15. -/
def Obligations.StateAfterAnError : Prop :=
  ∀ (i : Instr) (s t : State) (st : Status) (e : ErrVal), exec i s = .next t →
    t.resp = some ⟨st, .error e⟩ →
    (s.pending = none → t.cmdReady = true) ∧
    t.registers =
      (match i, st with
      | .setConfig c, _ => (c, s.rref, s.rnom, s.life, .idle, 0)
      | .beginOp _ _ _, .busInitError => (s.cfg, s.rref, s.rnom, .dead, .idle, 0)
      | .beginOp c x y, _ => (c, x, y, .up, .idle, 0)
      | _, _ => (s.cfg, s.rref, s.rnom, s.life, .idle, 0))

/-- R62, R170, R178: an accepted command ends with its one response and nothing outstanding, or it waits for an
answer that does not come, with its last event unanswered and no response, or a reset ends it with no
response, and the block is in reset; if every request is answered and no reset comes it responds. -/
def Obligations.OperationsRespondUnlessUnanswered : Prop :=
  ∀ (i : Instr) (s t : State), i.isOperation = true → s.pending = none → s.resetPin = false →
    exec i s = .next t →
    ((t.resp.isSome = true ∧ t.pending = none ∧ t.resetPin = false) ∨
      (t.resp = none ∧ t.resetPin = false ∧ ∃ before,
        (∃ r, t.events = before ++ [.txn r .unanswered] ∧ t.pending = some (.txn r)) ∨
        (t.events = before ++ [.acquire .unanswered] ∧ t.pending = some .acquire)) ∨
      (t.AtReset ∧ t.resetPin = true)) ∧
    ((∀ k < 6, ∃ r, s.upcoming k = .answer r) → t.resp.isSome = true)

/-- R178, R61: while an answer is outstanding, or STATE is not Idle, the block accepts no command and stays as
it is, until the reset input is asserted. -/
def Obligations.BusyBlockAcceptsNothing : Prop :=
  ∀ s : State, s.resetPin = false → s.pending ≠ none ∨ s.seq ≠ .idle →
    (s.draw.isReset = false → step s = .next s) ∧
    (s.draw.isReset = true → step s = .next s.cutShort)

/-- A step runs the instruction decoded: with the reset input released and the port ready, what is presented
first is sampled on the ports and taken from them, and the step is exec of its decoding (R46, R61). With
nothing presented the block idles (R163). -/
def Obligations.StepRunsTheDecodedInstruction : Prop :=
  (∀ (s : State) p q i, s.resetPin = false → s.resetDue = false → s.seq = .idle → s.pending = none →
    s.queue = p :: q → decode (p.onPorts s.params.num.fw) = .ok i → step s = exec i { s with queue := q }) ∧
  (∀ s : State, s.resetPin = false → s.draw.isReset = false → s.queue = [] → step s = .next s)

/-- R170, R20: the reset input ends an operation in progress with no response and no further event, and while it
is asserted and on its release LIFE, STATE and TMR have their reset values; nothing is said of CFG, RREF and
RNOM. The first clause is its assertion between operations or while an answer is outstanding, the second its
release in the step that follows. That a response already given is gone, that what is presented and the
inputs to come stay, and that the release takes a step of its own, is the model's choice (log entry 17). -/
def Obligations.ResetInputEndsTheOperation : Prop :=
  (∀ s : State, s.resetPin = false → s.resetDue = true →
    ∃ t, step s = .next t ∧ t.resetPin = true ∧ t.life = .down ∧ t.seq = .idle ∧ t.tmr = 0 ∧
      t.pending = none ∧ t.resp = none ∧ t.events = s.events ∧ t.queue = s.queue ∧
      t.script = s.script.tail) ∧
  (∀ s : State, s.resetPin = true →
    ∃ t, step s = .next t ∧ t.resetPin = false ∧ t.life = .down ∧ t.seq = .idle ∧ t.tmr = 0 ∧
      t.pending = none ∧ t.resp = none ∧ t.events = s.events ∧ t.queue = s.queue ∧ t.script = s.script)

/-- R20: the registers after reset, for every configuration of the block; nothing is outstanding and no reset is
asserted; the state is settled. State.reset is that of the default configuration. -/
def Obligations.ResetStateIsSettled : Prop :=
  State.reset = State.resetWith Params.default ∧
  ∀ p : Params, (State.resetWith p).life = .down ∧ (State.resetWith p).seq = .idle ∧
    (State.resetWith p).tmr = 0 ∧ (State.resetWith p).pending = none ∧
    (State.resetWith p).resetPin = false ∧ (State.resetWith p).Settled

/-- R20: what CFG, RREF and RNOM hold after reset cannot be observed. While LIFE is not Up, no instruction's
response, history or further effect depends on them, and where an instruction leaves LIFE = Up it has
written all three. -/
def Obligations.UnspecifiedRegistersAreNotRead : Prop :=
  State.reset.life = .down ∧ State.reset.seq = .idle ∧ State.reset.tmr = 0 ∧
  ∀ (i : Instr) (s t t' : State) (c : Configuration) (x y : Flt), s.life ≠ .up → exec i s = .next t →
    exec i { s with cfg := c, rref := x, rnom := y } = .next t' →
    t'.resp = t.resp ∧ t'.events = t.events ∧ t'.micro = t.micro ∧ t'.life = t.life ∧
      (t.life = .up → t'.registers = t.registers)

/-- R181, R14, R16, R12 as an invariant: every step keeps the state settled, from every settled state. -/
def Obligations.StepKeepsTheStateSettled : Prop :=
  ∀ s t : State, s.Settled → step s = .next t → t.Settled

/-- R13: LIFE moves to Down by reset, from Down to Up or Dead by BEGIN, and from any value to Down by END, and
not otherwise. Where a reset ends an instruction (R170), LIFE is Down. The register LIFE is the spec's own
(D8), and that END moves it from every value is the decision D34 of the spec (R143, log entry 21). -/
def Obligations.LifeMovesByBeginAndEndOnly : Prop :=
  (∀ s : State, s.resetPin = true ∨ s.resetDue = true → ∃ t, step s = .next t ∧ t.life = .down) ∧
  ∀ (i : Instr) (s t : State), exec i s = .next t →
    (t.resetPin = true ∧ t.life = .down) ∨
    match i with
    | .beginOp _ _ _ => t.life = s.life ∨ (s.life = .down ∧ (t.life = .up ∨ t.life = .dead))
    | .endOp => t.life = .down
    | _ => t.life = s.life

/-- R12: BEGIN alone writes RREF and RNOM, with its operands, which it does not check, where no reset ends the
instruction (after one they are unspecified, R20); and GETTEMP alone reads them: no other instruction's
response, history or further effect depends on them. -/
def Obligations.ParametersWrittenByBeginReadByGetTemp : Prop :=
  (∀ (i : Instr) (s t : State), exec i s = .next t → t.rref ≠ s.rref ∨ t.rnom ≠ s.rnom →
    (∃ c, i = .beginOp c t.rref t.rnom) ∨ (t.resetPin = true ∧ t.life = .down)) ∧
  (∀ (c : Configuration) (x y x' y' : Flt) (s t t' : State), exec (.beginOp c x y) s = .next t →
    exec (.beginOp c x' y') s = .next t' →
    t'.resp = t.resp ∧ t'.events = t.events ∧ t'.cfg = t.cfg ∧ t'.life = t.life ∧ t'.seq = t.seq ∧
      t'.tmr = t.tmr ∧ t'.pending = t.pending) ∧
  (∀ (i : Instr) (s t t' : State) (x y : Flt), i ≠ .getTemp → exec i s = .next t →
    exec i { s with rref := x, rnom := y } = .next t' →
    t'.resp = t.resp ∧ t'.events = t.events ∧ t'.micro = t.micro ∧ t'.cfg = t.cfg ∧ t'.life = t.life ∧
      t'.seq = t.seq ∧ t'.tmr = t.tmr ∧ t'.pending = t.pending)

/-- R11, R100: BEGIN and SETCONFIG alone write CFG, with their operand, where no reset ends the instruction (after
one it is unspecified, R20); and the acquisition alone reads it: no other instruction's response, history or
further effect depends on it. -/
def Obligations.CfgWrittenByBeginAndSetConfigReadByAcquisition : Prop :=
  (∀ (i : Instr) (s t : State), exec i s = .next t → t.cfg ≠ s.cfg →
    i = .setConfig t.cfg ∨ (∃ x y, i = .beginOp t.cfg x y) ∨ (t.resetPin = true ∧ t.life = .down)) ∧
  (∀ (i : Instr) (s t t' : State) (c : Configuration), i ≠ .getRaw → i ≠ .getTemp → exec i s = .next t →
    exec i { s with cfg := c } = .next t' →
    t'.resp = t.resp ∧ t'.events = t.events ∧ t'.micro = t.micro ∧ t'.life = t.life ∧ t'.rref = t.rref ∧
      t'.rnom = t.rnom ∧ t'.seq = t.seq ∧ t'.tmr = t.tmr ∧ t'.pending = t.pending)

/-- R85, which the spec derives: every transaction in the history of any instruction is one of the four
shapes, and the fault-status register is read by READFAULT (or its row run alone) only (R84, R112). -/
def Obligations.OnlyTheFourTransactionsAreIssued : Prop :=
  ∀ (i : Instr) (s t : State), exec i s = .next t → ∀ ev ∈ t.events, ∀ r, ev.request = some r →
    r.isOwn ∧ (r = Request.read Config.addrFault 1 → i = .readFault ∨ i = .faultRd)

/-- R156, last sentence, with R94: after a SETCONFIG, a BEGIN, a GETRAW or a GETTEMP that succeeds, a chip that
takes the writes as R37 says holds the encoding of CFG, with no bias and no one-shot bit left over. -/
def Obligations.SuccessBringsTheChipInLine : Prop :=
  ∀ (i : Instr) (s t : State) (r : Result) (chip chip' : RefChip),
    (i = .getRaw ∨ i = .getTemp ∨ (∃ c, i = .setConfig c) ∨ ∃ c x y, i = .beginOp c x y) →
    exec i s = .next t → t.resp = some ⟨.ok, r⟩ → chip.replay t.events = some chip' →
    chip'.cfgreg = encodeConfig t.cfg

/-! ## TemperatureSolver -/

/-- R122 to R127: the four operations complete in every state in which no reset comes first, with the value of
their formulas, in the order of evaluation of D2 (log entry 12), over the numerics and the coefficients of
the block's configuration, whichever they are; nothing else moves. -/
def Obligations.SolverOperationsAnswerTheirFormulas : Prop :=
  ∀ (s : State) (ratio : Ratio) (x y : Flt), s.undisturbed 0 →
    let N := s.params.num.num
    let P := s.params.polyC
    let a := s.params.num.value x
    let b := s.params.num.value y
    let A := N.lit ⟨false, 39083, -7⟩
    let B := N.lit ⟨true, 5775, -10⟩
    let n := fun k : Nat => N.lit ⟨false, k, 0⟩
    let resistance := N.fdiv (N.fmul (N.ofNat ratio) a) (n 32768)
    let primary := fun rrtd =>
      N.fdiv
        (N.fadd
          (N.fsqrt
            (N.fadd (N.fsub (N.fmul A A) (N.fmul (n 4) B)) (N.fmul (N.fdiv (N.fmul (n 4) B) b) rrtd)))
          (N.fneg A))
        (N.fmul (n 2) B)
    let r := fun rrtd => N.fdiv (N.fmul (n 100) rrtd) b
    let r2 := fun rrtd => N.fmul (r rrtd) (r rrtd)
    let r3 := fun rrtd => N.fmul (r2 rrtd) (r rrtd)
    let r4 := fun rrtd => N.fmul (r3 rrtd) (r rrtd)
    let r5 := fun rrtd => N.fmul (r4 rrtd) (r rrtd)
    let fallback := fun rrtd =>
      N.fadd
        (N.fadd
          (N.fadd
            (N.fadd
              (N.fadd (N.lit P.c0) (N.fmul (N.lit P.c1) (r rrtd)))
              (N.fmul (N.lit P.c2) (r2 rrtd)))
            (N.fmul (N.lit P.c3) (r3 rrtd)))
          (N.fmul (N.lit P.c4) (r4 rrtd)))
        (N.fmul (N.lit P.c5) (r5 rrtd))
    exec (.resist ratio x) s = .next (s.ended .ok (.float resistance.toNat) [] [] 0) ∧
    exec (.cvd x y) s = .next (s.ended .ok (.float (primary a).toNat) [] [] 0) ∧
    exec (.poly x y) s = .next (s.ended .ok (.float (fallback a).toNat) [] [] 0) ∧
    exec (.solve ratio x y) s =
      .next (s.ended .ok
        (.float
          (if N.fgt (primary resistance) (n 0) then primary resistance else fallback resistance).toNat)
        [] [] 0)

/-- R124 over the real numbers: where the discriminant is not negative, the primary model's temperature solves
the quadratic, and it is positive exactly when the resistance exceeds the nominal one (the second is an
inference that R124 marks as the spec's own). -/
def Obligations.PrimaryModelSolvesTheQuadratic : Prop :=
  ∀ rrtd rnom : ℝ, 0 < rnom → 0 ≤ z2 realNum + z3 realNum rnom * rrtd →
    rrtd = rnom * (1 + 3.9083e-3 * cvd realNum rrtd rnom + -5.775e-7 * cvd realNum rrtd rnom ^ 2) ∧
    (0 < cvd realNum rrtd rnom ↔ rnom < rrtd)

/-- R125 over the real numbers: the fallback model is the quintic in `r = 100 · Rrtd / Rnominal` with the six
coefficients as printed. -/
def Obligations.FallbackModelIsTheQuintic : Prop :=
  ∀ rrtd rnom : ℝ,
    let r := 100 * rrtd / rnom
    poly realNum polyPrinted rrtd rnom =
      -242.02 + 2.2228 * r + 2.5859e-3 * r ^ 2 + 4.8260e-6 * r ^ 3 + 2.8183e-8 * r ^ 4 + 1.5243e-10 * r ^ 5

/-- R123 over the real numbers: the measured resistance is `ratio * Rref / 32768`, and it never reaches a
positive reference resistance. -/
def Obligations.ResistanceStaysBelowReference : Prop :=
  ∀ (ratio : Ratio) (rref : ℝ), 0 < rref →
    resist realNum ratio rref = ratio.toNat * rref / 32768 ∧ 0 ≤ resist realNum ratio rref ∧
      resist realNum ratio rref < rref

/-- R126 with the default NUM: the branch test is true exactly of the positive numbers and `+inf`; so it is
false of both zeros, of negative numbers, of `-inf` and of every NaN; and where it is false the polynomial
is used. That a NaN goes to the polynomial is the spec's reading through the default NUM (D21; log entry
10). -/
def Obligations.BranchTestIsStrictlyPositive : Prop :=
  (∀ x : BitVec 32, takesCvd binary32 x = true ↔
    fmt32.unpack x.toNat = .inf false ∨ ∃ v, value32 x = some v ∧ 0 < v) ∧
  ∀ (P : PolyC) (ratio : Ratio) (rref rnom : BitVec 32),
    (takesCvd binary32 (cvd binary32 (resist binary32 ratio rref) rnom) = true →
      solve binary32 P ratio rref rnom = cvd binary32 (resist binary32 ratio rref) rnom) ∧
    (takesCvd binary32 (cvd binary32 (resist binary32 ratio rref) rnom) = false →
      solve binary32 P ratio rref rnom = poly binary32 P (resist binary32 ratio rref) rnom)

/-- R123, D35: the conversion of a RawRatio to binary32 is exact. -/
def Obligations.RatioConversionIsExact : Prop :=
  ∀ ratio : Ratio, value32 (binary32.ofNat ratio) = some (ratio.toNat : ℚ)

/-- R121 ("every operation correctly rounded, round to nearest") for addition and multiplication of binary32:
where the result is finite, no binary32 number is nearer to the exact sum or product. -/
def Obligations.SumsAndProductsAreNearest : Prop :=
  ∀ (a b z : BitVec 32) (va vb vz : ℚ), value32 a = some va → value32 b = some vb → value32 z = some vz →
    (∀ v, value32 (binary32.fadd a b) = some v → |v - (va + vb)| ≤ |vz - (va + vb)|) ∧
    (∀ v, value32 (binary32.fmul a b) = some v → |v - va * vb| ≤ |vz - va * vb|)

/-- R127, which the spec derives: under the default NUM and the printed coefficients, for finite positive
parameters, SOLVE never answers a NaN. -/
def Obligations.SolveNeverAnswersNaN : Prop :=
  ∀ (ratio : Ratio) (rref rnom : BitVec 32) (v w : ℚ), value32 rref = some v → 0 < v →
    value32 rnom = some w → 0 < w → ¬ isNaN32 (solve binary32 polyPrinted ratio rref rnom)

/-- The constants of R122 and coefficients of R125 in binary32, as the spec's tables give them. -/
def Obligations.ConstantsHaveTheTabledPatterns : Prop :=
  binary32.lit cvdA = 0x3B801132#32 ∧ binary32.lit cvdB = 0xB51B057F#32 ∧ z1 binary32 = 0xBB801132#32 ∧
  z2 binary32 = 0x37938316#32 ∧ z4 binary32 = 0xB59B057F#32 ∧ z3 binary32 0x42C80000#32 = 0xB2C66D6F#32 ∧
  [polyPrinted.c0, polyPrinted.c1, polyPrinted.c2, polyPrinted.c3, polyPrinted.c4, polyPrinted.c5].map
    binary32.lit = [0xC372051F#32, 0x400E425B#32, 0x3B297834#32, 0x36A1EF06#32, 0x32F21713#32, 0x2F27993B#32]

/-! ## The configuration of the block, and a reset inside an operation -/

/-- R5: the numerics and the coefficients are the configuration of the block, fixed for its life: no step
changes them. -/
def Obligations.ConfigurationNeverChanges : Prop :=
  ∀ s t : State, step s = .next t → t.params = s.params

/-- R121, R125: a block of either instance of NUM, and of any set of coefficients, answers a SOLVE with the
solver's value over that instance and that set, on the operands as its ports of FW bits carry them. -/
def Obligations.SolveRunsOnTheConfiguredNumerics : Prop :=
  ∀ (s : State) (P : PolyC) (ratio : Ratio), s.undisturbed 0 → s.params.polyC = P →
    (∀ rref rnom : BitVec 32, s.params.num = .binary32 →
      exec (.solve ratio rref.toNat rnom.toNat) s =
        .next (s.ended .ok (.float (solve binary32 P ratio rref rnom).toNat) [] [] 0)) ∧
    (∀ rref rnom : BitVec 64, s.params.num = .binary64 →
      exec (.solve ratio rref.toNat rnom.toNat) s =
        .next (s.ended .ok (.float (solve binary64 P ratio rref rnom).toNat) [] [] 0))

/-- R170, R20: an operation that a reset ends has no response, and the registers have their reset values while
the reset input is asserted and on its release, which adds no event and no response. That the release takes
a step of its own is the model's choice (log entry 17). -/
def Obligations.ResetOperationHasNoResponse : Prop :=
  ∀ (i : Instr) (s t : State), i.isOperation = true → s.resetPin = false → exec i s = .next t →
    t.resetPin = true →
    t.AtReset ∧ ∃ u, step t = .next u ∧ u.AtReset ∧ u.resetPin = false ∧ u.events = t.events

/-- R170 in an acquisition, at every point: where a reset comes after `k` transactions have been answered, the
operation ends there with no response. Its history is a part of the sequence from its beginning, in which
`k` transactions are answered, with no event after it but the request that was outstanding, if the reset
came inside one; and the registers have their reset values while the reset input is asserted: the block
waits for no answer, and a delay that ran is over. That a reset of the time `between` acts as one of the
time `before` while an event of the operation is still to come is the model's choice (log entry 17). -/
def Obligations.ResetEndsAcquisitionAnywhere : Prop :=
  ∀ (i : Instr) (s : State) (k : Nat) (at' : ResetTime), i = .getRaw ∨ i = .getTemp →
    s.life = .up → k ≤ acquisitionDraws s.cfg → s.okDraws k → s.upcoming k = .reset at' →
    (at' = .between → k < acquisitionDraws s.cfg) →
    ∃ t, exec i s = .next t ∧ t.resetPin = true ∧ t.AtReset ∧
      (t.events.filter Event.succeeded).length = k ∧
      (t.events <+: s.acquisition ∨
        (at' = .inside ∧ ∃ before r o after, s.acquisition = before ++ .txn r o :: after ∧
          t.events = before ++ [.txn r .unanswered]))
end

