-- ==== Sys2Proof/Laws/State.lean ====
section
/-! SUPPORT. One lemma for each field of each named update of State, so that no proof unfolds a record update,
and the names of one update in terms of another. -/

namespace Sys2Proof.Machine

/-! ## The beginning of an operation -/

@[simp] theorem startOp_params (s : State) : (s.startOp).params = s.params := rfl
@[simp] theorem startOp_cfg (s : State) : (s.startOp).cfg = s.cfg := rfl
@[simp] theorem startOp_rref (s : State) : (s.startOp).rref = s.rref := rfl
@[simp] theorem startOp_rnom (s : State) : (s.startOp).rnom = s.rnom := rfl
@[simp] theorem startOp_life (s : State) : (s.startOp).life = s.life := rfl
@[simp] theorem startOp_seq (s : State) : (s.startOp).seq = s.seq := rfl
@[simp] theorem startOp_tmr (s : State) : (s.startOp).tmr = s.tmr := rfl
@[simp] theorem startOp_pending (s : State) : (s.startOp).pending = s.pending := rfl
@[simp] theorem startOp_resetPin (s : State) : (s.startOp).resetPin = s.resetPin := rfl
@[simp] theorem startOp_resp (s : State) : (s.startOp).resp = none := rfl
@[simp] theorem startOp_events (s : State) : (s.startOp).events = [] := rfl
@[simp] theorem startOp_walk (s : State) : (s.startOp).walk = [] := rfl
@[simp] theorem startOp_micro (s : State) : (s.startOp).micro = none := rfl
@[simp] theorem startOp_queue (s : State) : (s.startOp).queue = s.queue := rfl
@[simp] theorem startOp_script (s : State) : (s.startOp).script = s.script := rfl
@[simp] theorem startOp_draws (s : State) : (s.startOp).draws = s.draws := rfl

/-! ## An event -/

@[simp] theorem record_params (s : State) (e : Event) : (s.record e).params = s.params := rfl
@[simp] theorem record_cfg (s : State) (e : Event) : (s.record e).cfg = s.cfg := rfl
@[simp] theorem record_rref (s : State) (e : Event) : (s.record e).rref = s.rref := rfl
@[simp] theorem record_rnom (s : State) (e : Event) : (s.record e).rnom = s.rnom := rfl
@[simp] theorem record_life (s : State) (e : Event) : (s.record e).life = s.life := rfl
@[simp] theorem record_seq (s : State) (e : Event) : (s.record e).seq = s.seq := rfl
@[simp] theorem record_tmr (s : State) (e : Event) : (s.record e).tmr = s.tmr := rfl
@[simp] theorem record_pending (s : State) (e : Event) : (s.record e).pending = s.pending := rfl
@[simp] theorem record_resetPin (s : State) (e : Event) : (s.record e).resetPin = s.resetPin := rfl
@[simp] theorem record_resp (s : State) (e : Event) : (s.record e).resp = s.resp := rfl
@[simp] theorem record_events (s : State) (e : Event) : (s.record e).events = s.events ++ [e] := rfl
@[simp] theorem record_walk (s : State) (e : Event) : (s.record e).walk = s.walk := rfl
@[simp] theorem record_micro (s : State) (e : Event) : (s.record e).micro = s.micro := rfl
@[simp] theorem record_queue (s : State) (e : Event) : (s.record e).queue = s.queue := rfl
@[simp] theorem record_script (s : State) (e : Event) : (s.record e).script = s.script := rfl
@[simp] theorem record_draws (s : State) (e : Event) : (s.record e).draws = s.draws := rfl

/-! ## A state of the sequence -/

@[simp] theorem enter_params (s : State) (q : SeqState) : (s.enter q).params = s.params := rfl
@[simp] theorem enter_cfg (s : State) (q : SeqState) : (s.enter q).cfg = s.cfg := rfl
@[simp] theorem enter_rref (s : State) (q : SeqState) : (s.enter q).rref = s.rref := rfl
@[simp] theorem enter_rnom (s : State) (q : SeqState) : (s.enter q).rnom = s.rnom := rfl
@[simp] theorem enter_life (s : State) (q : SeqState) : (s.enter q).life = s.life := rfl
@[simp] theorem enter_seq (s : State) (q : SeqState) : (s.enter q).seq = q := rfl
@[simp] theorem enter_tmr (s : State) (q : SeqState) : (s.enter q).tmr = s.tmr := rfl
@[simp] theorem enter_pending (s : State) (q : SeqState) : (s.enter q).pending = s.pending := rfl
@[simp] theorem enter_resetPin (s : State) (q : SeqState) : (s.enter q).resetPin = s.resetPin := rfl
@[simp] theorem enter_resp (s : State) (q : SeqState) : (s.enter q).resp = s.resp := rfl
@[simp] theorem enter_events (s : State) (q : SeqState) : (s.enter q).events = s.events := rfl
@[simp] theorem enter_walk (s : State) (q : SeqState) : (s.enter q).walk = s.walk ++ [q] := rfl
@[simp] theorem enter_micro (s : State) (q : SeqState) : (s.enter q).micro = s.micro := rfl
@[simp] theorem enter_queue (s : State) (q : SeqState) : (s.enter q).queue = s.queue := rfl
@[simp] theorem enter_script (s : State) (q : SeqState) : (s.enter q).script = s.script := rfl
@[simp] theorem enter_draws (s : State) (q : SeqState) : (s.enter q).draws = s.draws := rfl

/-! ## A draw -/

@[simp] theorem popDraw_params (s : State) : (s.popDraw).params = s.params := rfl
@[simp] theorem popDraw_cfg (s : State) : (s.popDraw).cfg = s.cfg := rfl
@[simp] theorem popDraw_rref (s : State) : (s.popDraw).rref = s.rref := rfl
@[simp] theorem popDraw_rnom (s : State) : (s.popDraw).rnom = s.rnom := rfl
@[simp] theorem popDraw_life (s : State) : (s.popDraw).life = s.life := rfl
@[simp] theorem popDraw_seq (s : State) : (s.popDraw).seq = s.seq := rfl
@[simp] theorem popDraw_tmr (s : State) : (s.popDraw).tmr = s.tmr := rfl
@[simp] theorem popDraw_pending (s : State) : (s.popDraw).pending = s.pending := rfl
@[simp] theorem popDraw_resetPin (s : State) : (s.popDraw).resetPin = s.resetPin := rfl
@[simp] theorem popDraw_resp (s : State) : (s.popDraw).resp = s.resp := rfl
@[simp] theorem popDraw_events (s : State) : (s.popDraw).events = s.events := rfl
@[simp] theorem popDraw_walk (s : State) : (s.popDraw).walk = s.walk := rfl
@[simp] theorem popDraw_micro (s : State) : (s.popDraw).micro = s.micro := rfl
@[simp] theorem popDraw_queue (s : State) : (s.popDraw).queue = s.queue := rfl
@[simp] theorem popDraw_script (s : State) : (s.popDraw).script = s.script.tail := rfl
@[simp] theorem popDraw_draws (s : State) : (s.popDraw).draws = s.draws + 1 := rfl

/-! ## The reset input is asserted -/

@[simp] theorem assertReset_params (s : State) : (s.assertReset).params = s.params := rfl
@[simp] theorem assertReset_cfg (s : State) : (s.assertReset).cfg = Config.freeCfg s.draws := rfl
@[simp] theorem assertReset_rref (s : State) : (s.assertReset).rref = (Config.freeRref s.params.num.fw s.draws).toNat := rfl
@[simp] theorem assertReset_rnom (s : State) : (s.assertReset).rnom = (Config.freeRnom s.params.num.fw s.draws).toNat := rfl
@[simp] theorem assertReset_life (s : State) : (s.assertReset).life = .down := rfl
@[simp] theorem assertReset_seq (s : State) : (s.assertReset).seq = .idle := rfl
@[simp] theorem assertReset_tmr (s : State) : (s.assertReset).tmr = 0 := rfl
@[simp] theorem assertReset_pending (s : State) : (s.assertReset).pending = none := rfl
@[simp] theorem assertReset_resetPin (s : State) : (s.assertReset).resetPin = true := rfl
@[simp] theorem assertReset_resp (s : State) : (s.assertReset).resp = none := rfl
@[simp] theorem assertReset_events (s : State) : (s.assertReset).events = s.events := rfl
@[simp] theorem assertReset_walk (s : State) : (s.assertReset).walk = s.walk := rfl
@[simp] theorem assertReset_micro (s : State) : (s.assertReset).micro = none := rfl
@[simp] theorem assertReset_queue (s : State) : (s.assertReset).queue = s.queue := rfl
@[simp] theorem assertReset_script (s : State) : (s.assertReset).script = s.script := rfl
@[simp] theorem assertReset_draws (s : State) : (s.assertReset).draws = s.draws + 1 := rfl

/-! ## The reset input is released -/

@[simp] theorem releaseReset_params (s : State) : (s.releaseReset).params = s.params := rfl
@[simp] theorem releaseReset_cfg (s : State) : (s.releaseReset).cfg = Config.freeCfg s.draws := rfl
@[simp] theorem releaseReset_rref (s : State) : (s.releaseReset).rref = (Config.freeRref s.params.num.fw s.draws).toNat := rfl
@[simp] theorem releaseReset_rnom (s : State) : (s.releaseReset).rnom = (Config.freeRnom s.params.num.fw s.draws).toNat := rfl
@[simp] theorem releaseReset_life (s : State) : (s.releaseReset).life = .down := rfl
@[simp] theorem releaseReset_seq (s : State) : (s.releaseReset).seq = .idle := rfl
@[simp] theorem releaseReset_tmr (s : State) : (s.releaseReset).tmr = 0 := rfl
@[simp] theorem releaseReset_pending (s : State) : (s.releaseReset).pending = none := rfl
@[simp] theorem releaseReset_resetPin (s : State) : (s.releaseReset).resetPin = false := rfl
@[simp] theorem releaseReset_resp (s : State) : (s.releaseReset).resp = none := rfl
@[simp] theorem releaseReset_events (s : State) : (s.releaseReset).events = s.events := rfl
@[simp] theorem releaseReset_walk (s : State) : (s.releaseReset).walk = s.walk := rfl
@[simp] theorem releaseReset_micro (s : State) : (s.releaseReset).micro = none := rfl
@[simp] theorem releaseReset_queue (s : State) : (s.releaseReset).queue = s.queue := rfl
@[simp] theorem releaseReset_script (s : State) : (s.releaseReset).script = s.script := rfl
@[simp] theorem releaseReset_draws (s : State) : (s.releaseReset).draws = s.draws + 1 := rfl

/-! ## A reset comes -/

@[simp] theorem cutShort_params (s : State) : (s.cutShort).params = s.params := rfl
@[simp] theorem cutShort_cfg (s : State) : (s.cutShort).cfg = Config.freeCfg (s.draws + 1) := rfl
@[simp] theorem cutShort_rref (s : State) : (s.cutShort).rref = (Config.freeRref s.params.num.fw (s.draws + 1)).toNat := rfl
@[simp] theorem cutShort_rnom (s : State) : (s.cutShort).rnom = (Config.freeRnom s.params.num.fw (s.draws + 1)).toNat := rfl
@[simp] theorem cutShort_life (s : State) : (s.cutShort).life = .down := rfl
@[simp] theorem cutShort_seq (s : State) : (s.cutShort).seq = .idle := rfl
@[simp] theorem cutShort_tmr (s : State) : (s.cutShort).tmr = 0 := rfl
@[simp] theorem cutShort_pending (s : State) : (s.cutShort).pending = none := rfl
@[simp] theorem cutShort_resetPin (s : State) : (s.cutShort).resetPin = true := rfl
@[simp] theorem cutShort_resp (s : State) : (s.cutShort).resp = none := rfl
@[simp] theorem cutShort_events (s : State) : (s.cutShort).events = s.events := rfl
@[simp] theorem cutShort_walk (s : State) : (s.cutShort).walk = s.walk := rfl
@[simp] theorem cutShort_micro (s : State) : (s.cutShort).micro = none := rfl
@[simp] theorem cutShort_queue (s : State) : (s.cutShort).queue = s.queue := rfl
@[simp] theorem cutShort_script (s : State) : (s.cutShort).script = s.script.tail := rfl
@[simp] theorem cutShort_draws (s : State) : (s.cutShort).draws = s.draws + 2 := rfl

/-! ## The response -/

theorem respond_undisturbed {s : State} (st : Status) (r : Result) (h : s.draw.endsOperation = false) :
    s.respond st r = { s with resp := some ⟨st, r⟩ } := by
  simp [State.respond, h]

theorem respond_reset {s : State} (st : Status) (r : Result) (h : s.draw.endsOperation = true) :
    s.respond st r = s.cutShort := by
  simp [State.respond, h]

/-- Everything a response can do. -/
theorem respond_cases (s : State) (st : Status) (r : Result) :
    (s.draw.endsOperation = false ∧ s.respond st r = { s with resp := some ⟨st, r⟩ }) ∨
    (s.draw.endsOperation = true ∧ s.respond st r = s.cutShort) := by
  cases h : s.draw.endsOperation
  · exact .inl ⟨rfl, respond_undisturbed st r h⟩
  · exact .inr ⟨rfl, respond_reset st r h⟩

@[simp] theorem respond_params (s : State) (st : Status) (r : Result) : (s.respond st r).params = s.params := by
  unfold State.respond; split <;> rfl
@[simp] theorem respond_events (s : State) (st : Status) (r : Result) : (s.respond st r).events = s.events := by
  unfold State.respond; split <;> rfl
@[simp] theorem respond_walk (s : State) (st : Status) (r : Result) : (s.respond st r).walk = s.walk := by
  unfold State.respond; split <;> rfl
@[simp] theorem respond_queue (s : State) (st : Status) (r : Result) : (s.respond st r).queue = s.queue := by
  unfold State.respond; split <;> rfl

/-! ## What a row that is no command delivers -/

@[simp] theorem deliver_params (s : State) (m : MicroOut) : (s.deliver m).params = s.params := rfl
@[simp] theorem deliver_cfg (s : State) (m : MicroOut) : (s.deliver m).cfg = s.cfg := rfl
@[simp] theorem deliver_rref (s : State) (m : MicroOut) : (s.deliver m).rref = s.rref := rfl
@[simp] theorem deliver_rnom (s : State) (m : MicroOut) : (s.deliver m).rnom = s.rnom := rfl
@[simp] theorem deliver_life (s : State) (m : MicroOut) : (s.deliver m).life = s.life := rfl
@[simp] theorem deliver_seq (s : State) (m : MicroOut) : (s.deliver m).seq = s.seq := rfl
@[simp] theorem deliver_tmr (s : State) (m : MicroOut) : (s.deliver m).tmr = s.tmr := rfl
@[simp] theorem deliver_pending (s : State) (m : MicroOut) : (s.deliver m).pending = s.pending := rfl
@[simp] theorem deliver_resetPin (s : State) (m : MicroOut) : (s.deliver m).resetPin = s.resetPin := rfl
@[simp] theorem deliver_resp (s : State) (m : MicroOut) : (s.deliver m).resp = s.resp := rfl
@[simp] theorem deliver_events (s : State) (m : MicroOut) : (s.deliver m).events = s.events := rfl
@[simp] theorem deliver_walk (s : State) (m : MicroOut) : (s.deliver m).walk = s.walk := rfl
@[simp] theorem deliver_micro (s : State) (m : MicroOut) : (s.deliver m).micro = some m := rfl
@[simp] theorem deliver_queue (s : State) (m : MicroOut) : (s.deliver m).queue = s.queue := rfl
@[simp] theorem deliver_script (s : State) (m : MicroOut) : (s.deliver m).script = s.script := rfl
@[simp] theorem deliver_draws (s : State) (m : MicroOut) : (s.deliver m).draws = s.draws := rfl

/-! ## An error -/

theorem abort_undisturbed {s : State} (st : Status) (e : ErrVal) (h : s.draw.endsOperation = false) :
    s.abort st e = { s with seq := .idle, tmr := 0, resp := some ⟨st, .error e⟩ } :=
  respond_undisturbed (s := { s with seq := .idle, tmr := 0 }) st _ h

theorem abort_reset {s : State} (st : Status) (e : ErrVal) (h : s.draw.endsOperation = true) :
    s.abort st e = s.cutShort :=
  respond_reset (s := { s with seq := .idle, tmr := 0 }) st _ h

@[simp] theorem abort_params (s : State) (st : Status) (e : ErrVal) : (s.abort st e).params = s.params := by
  simp [State.abort]
@[simp] theorem abort_events (s : State) (st : Status) (e : ErrVal) : (s.abort st e).events = s.events := by
  simp [State.abort]
@[simp] theorem abort_walk (s : State) (st : Status) (e : ErrVal) : (s.abort st e).walk = s.walk := by
  simp [State.abort]
@[simp] theorem abort_queue (s : State) (st : Status) (e : ErrVal) : (s.abort st e).queue = s.queue := by
  simp [State.abort]

/-! ## Bring-up -/

@[simp] theorem bringUp_params (s : State) (c : Configuration) (x y : Flt) : (s.bringUp c x y).params = s.params := rfl
@[simp] theorem bringUp_cfg (s : State) (c : Configuration) (x y : Flt) : (s.bringUp c x y).cfg = c := rfl
@[simp] theorem bringUp_rref (s : State) (c : Configuration) (x y : Flt) : (s.bringUp c x y).rref = x := rfl
@[simp] theorem bringUp_rnom (s : State) (c : Configuration) (x y : Flt) : (s.bringUp c x y).rnom = y := rfl
@[simp] theorem bringUp_life (s : State) (c : Configuration) (x y : Flt) : (s.bringUp c x y).life = .up := rfl
@[simp] theorem bringUp_seq (s : State) (c : Configuration) (x y : Flt) : (s.bringUp c x y).seq = s.seq := rfl
@[simp] theorem bringUp_tmr (s : State) (c : Configuration) (x y : Flt) : (s.bringUp c x y).tmr = s.tmr := rfl
@[simp] theorem bringUp_pending (s : State) (c : Configuration) (x y : Flt) : (s.bringUp c x y).pending = s.pending := rfl
@[simp] theorem bringUp_resetPin (s : State) (c : Configuration) (x y : Flt) : (s.bringUp c x y).resetPin = s.resetPin := rfl
@[simp] theorem bringUp_resp (s : State) (c : Configuration) (x y : Flt) : (s.bringUp c x y).resp = s.resp := rfl
@[simp] theorem bringUp_events (s : State) (c : Configuration) (x y : Flt) : (s.bringUp c x y).events = s.events := rfl
@[simp] theorem bringUp_walk (s : State) (c : Configuration) (x y : Flt) : (s.bringUp c x y).walk = s.walk := rfl
@[simp] theorem bringUp_micro (s : State) (c : Configuration) (x y : Flt) : (s.bringUp c x y).micro = s.micro := rfl
@[simp] theorem bringUp_queue (s : State) (c : Configuration) (x y : Flt) : (s.bringUp c x y).queue = s.queue := rfl
@[simp] theorem bringUp_script (s : State) (c : Configuration) (x y : Flt) : (s.bringUp c x y).script = s.script := rfl
@[simp] theorem bringUp_draws (s : State) (c : Configuration) (x y : Flt) : (s.bringUp c x y).draws = s.draws := rfl

/-! ## What is presented -/

@[simp] theorem present_params (s : State) (p : Presented) : (s.present p).params = s.params := rfl
@[simp] theorem present_cfg (s : State) (p : Presented) : (s.present p).cfg = s.cfg := rfl
@[simp] theorem present_rref (s : State) (p : Presented) : (s.present p).rref = s.rref := rfl
@[simp] theorem present_rnom (s : State) (p : Presented) : (s.present p).rnom = s.rnom := rfl
@[simp] theorem present_life (s : State) (p : Presented) : (s.present p).life = s.life := rfl
@[simp] theorem present_seq (s : State) (p : Presented) : (s.present p).seq = .idle := rfl
@[simp] theorem present_tmr (s : State) (p : Presented) : (s.present p).tmr = s.tmr := rfl
@[simp] theorem present_pending (s : State) (p : Presented) : (s.present p).pending = none := rfl
@[simp] theorem present_resetPin (s : State) (p : Presented) : (s.present p).resetPin = false := rfl
@[simp] theorem present_resp (s : State) (p : Presented) : (s.present p).resp = s.resp := rfl
@[simp] theorem present_events (s : State) (p : Presented) : (s.present p).events = s.events := rfl
@[simp] theorem present_walk (s : State) (p : Presented) : (s.present p).walk = s.walk := rfl
@[simp] theorem present_micro (s : State) (p : Presented) : (s.present p).micro = s.micro := rfl
@[simp] theorem present_queue (s : State) (p : Presented) : (s.present p).queue = p :: s.queue := rfl
@[simp] theorem present_script (s : State) (p : Presented) : (s.present p).script = s.script.dropWhile Draw.isReset := rfl
@[simp] theorem present_draws (s : State) (p : Presented) : (s.present p).draws = s.draws := rfl

/-! ## Names of one update in terms of another -/

@[simp] theorem returnOk_eq_respond (s : State) (r : Result) : s.returnOk r = s.respond .ok r := rfl
@[simp] theorem refuse_eq_respond (s : State) (st : Status) : refuse st s = s.respond st .none := rfl
@[simp] theorem raiseTransportError_eq_abort (e : ErrVal) (s : State) :
    raiseTransportError e s = s.abort .transportError e := rfl
@[simp] theorem raiseBusInitError_eq_abort (e : ErrVal) (s : State) :
    raiseBusInitError e s = State.abort { s with life := .dead } .busInitError e := rfl

/-- Two states with equal fields are equal. -/
theorem State.ext_fields {s t : State} (h0 : s.params = t.params) (h1 : s.registers = t.registers)
    (h2 : s.pending = t.pending) (h3 : s.resetPin = t.resetPin) (h4 : s.resp = t.resp)
    (h5 : s.events = t.events) (h6 : s.walk = t.walk) (h7 : s.micro = t.micro) (h8 : s.queue = t.queue)
    (h9 : s.script = t.script) (h10 : s.draws = t.draws) : s = t := by
  cases s
  cases t
  simp_all [State.registers]

end Sys2Proof.Machine
end

