-- ==== Sys2Proof/Laws/Ops.lean ====
section
/-! SUPPORT. What each shared operation can do, said once: the draws, the transactions, the bus resource, the
delay, admission, the command port and the step. A proof about an instruction cites these and does not
unfold the operations. -/

namespace Sys2Proof.Machine

/-! ## Draws -/

@[simp] theorem upcoming_zero (s : State) : s.upcoming 0 = s.draw := rfl
@[simp] theorem upcoming_succ (s : State) (n : Nat) : s.upcoming (n + 1) = s.popDraw.upcoming n := rfl

/-- A draw depends on the script, on the count of draws and on the configuration alone. -/
theorem draw_congr {s t : State} (h0 : s.params = t.params) (h1 : s.script = t.script)
    (h2 : s.draws = t.draws) : s.draw = t.draw := by
  unfold State.draw
  rw [h0, h1, h2]

/-- The draws to come depend on the script, on the count of draws and on the configuration alone. -/
theorem upcoming_congr (n : Nat) : ∀ {s t : State}, s.params = t.params → s.script = t.script →
    s.draws = t.draws → s.upcoming n = t.upcoming n := by
  induction n with
  | zero => exact fun h0 h1 h2 => draw_congr h0 h1 h2
  | succ n ih => exact fun h0 h1 h2 => ih (by simp [h0]) (by simp [h1]) (by simp [h2])

/-- The widths of the ports are no part of what an input is. -/
@[simp] theorem isReset_onPorts (w : Nat) (d : Draw) : (d.onPorts w).isReset = d.isReset := by
  rcases d with (_ | _) | _ | _ <;> rfl

/-- What is presented is accepted by the next step: no reset is about to be asserted. -/
theorem present_draw_isReset (s : State) (p : Presented) : (s.present p).draw.isReset = false := by
  have h : ∀ l : List Draw, ∀ d m, l.dropWhile Draw.isReset = d :: m → d.isReset = false := by
    intro l
    induction l with
    | nil => intro d m h; cases h
    | cons a l ih =>
      intro d m h
      rcases ha : a.isReset with _ | _
      · simp only [List.dropWhile_cons, ha] at h
        cases h
        exact ha
      · simp only [List.dropWhile_cons, ha] at h
        exact ih d m h
  unfold State.draw
  split
  · rename_i d m hs
    rw [isReset_onPorts]
    exact h s.script d m hs
  · rfl

/-- A draw that is a success has two bytes. -/
theorem Draw.isOk_iff (d : Draw) : d.isOk = true ↔ d = .answer (.ok d.bytes.1 d.bytes.2) := by
  rcases d with (_ | _) | _ | _ <;> simp [Draw.isOk, Draw.bytes]

/-- A success is no reset. -/
theorem Draw.endsOperation_of_isOk {d : Draw} (h : d.isOk = true) : d.endsOperation = false := by
  rw [(Draw.isOk_iff d).1 h]
  rfl

/-- What follows a success among draws that are all successes. -/
theorem okDraws_succ {s : State} {n : Nat} (h : s.okDraws (n + 1)) :
    s.draw = .answer (.ok s.draw.bytes.1 s.draw.bytes.2) ∧ s.popDraw.okDraws n :=
  ⟨(Draw.isOk_iff _).1 (h 0 (Nat.succ_pos n)), fun k hk => h (k + 1) (Nat.succ_lt_succ hk)⟩

/-! ## Reset -/

/-- The block is in reset where a reset has ended an operation, whatever the history then says. -/
theorem cutShort_atReset (s : State) : s.cutShort.AtReset := ⟨rfl, rfl, rfl, rfl, rfl⟩

/-- The block has its reset values where the reset input has been released. -/
theorem releaseReset_atReset (s : State) : s.releaseReset.AtReset := ⟨rfl, rfl, rfl, rfl, rfl⟩

/-- The registers of type `F` hold patterns of `FW` bits in reset (R12). -/
theorem cutShort_width (s : State) :
    s.cutShort.rref < 2 ^ s.params.num.fw ∧ s.cutShort.rnom < 2 ^ s.params.num.fw :=
  ⟨BitVec.isLt _, BitVec.isLt _⟩

/-! ## A transaction -/

theorem transact_ok {r : Request} {s : State} {k : Byte → Byte → State → State} {d0 d1 : Byte}
    (h : s.draw = .answer (.ok d0 d1)) :
    transact r s k = k d0 d1 (s.popDraw.record (.txn r (.ok (r.delivered d0 d1)))) := by
  simp [transact, h]

theorem transact_err {r : Request} {s : State} {k : Byte → Byte → State → State} {e : ErrVal}
    (h : s.draw = .answer (.err e)) :
    transact r s k = (s.popDraw.record (.txn r (.err e))).abort .transportError e := by
  simp [transact, h]

theorem transact_silent {r : Request} {s : State} {k : Byte → Byte → State → State} (h : s.draw = .silent) :
    transact r s k = { s.popDraw.record (.txn r .unanswered) with pending := some (.txn r) } := by
  simp [transact, h]

theorem transact_reset_inside {r : Request} {s : State} {k : Byte → Byte → State → State}
    (h : s.draw = .reset .inside) : transact r s k = s.cutShort.record (.txn r .unanswered) := by
  simp [transact, h]

theorem transact_reset_before {r : Request} {s : State} {k : Byte → Byte → State → State}
    (h : s.draw = .reset .before ∨ s.draw = .reset .between) : transact r s k = s.cutShort := by
  rcases h with h | h <;> simp [transact, h]

/-- Everything a transaction can do: whatever holds of the five ways it can go holds of it. -/
theorem transact_cases {P : State → Prop} (r : Request) (s : State) (k : Byte → Byte → State → State)
    (hok : ∀ d0 d1, s.draw = .answer (.ok d0 d1) →
      P (k d0 d1 (s.popDraw.record (.txn r (.ok (r.delivered d0 d1))))))
    (herr : ∀ e, s.draw = .answer (.err e) →
      P ((s.popDraw.record (.txn r (.err e))).abort .transportError e))
    (hsilent : s.draw = .silent →
      P { s.popDraw.record (.txn r .unanswered) with pending := some (.txn r) })
    (hinside : P (s.cutShort.record (.txn r .unanswered)))
    (hbefore : P s.cutShort) :
    P (transact r s k) := by
  rcases h : s.draw with (⟨d0, d1⟩ | e) | _ | (_ | _ | _)
  · rw [transact_ok h]; exact hok d0 d1 h
  · rw [transact_err h]; exact herr e h
  · rw [transact_silent h]; exact hsilent h
  · rw [transact_reset_before (.inr h)]; exact hbefore
  · rw [transact_reset_before (.inl h)]; exact hbefore
  · rw [transact_reset_inside h]; exact hinside

@[simp] theorem delivered_write (a : RegIndex) (b d0 d1 : Byte) :
    (Request.write a b).delivered d0 d1 = [] := rfl
@[simp] theorem delivered_read1 (a : RegIndex) (d0 d1 : Byte) :
    (Request.read a 1).delivered d0 d1 = [d0] := rfl
@[simp] theorem delivered_read2 (a : RegIndex) (d0 d1 : Byte) :
    (Request.read a 2).delivered d0 d1 = [d0, d1] := rfl

theorem cfgWr_ok {b : Byte} {s : State} {k : State → State} {d0 d1 : Byte}
    (h : s.draw = .answer (.ok d0 d1)) : cfgWr b s k = k (s.popDraw.record (wrote b)) := by
  simp [cfgWr, memWrite1, transact_ok h, wrote]

theorem cfgRd_ok {s : State} {k : Byte → State → State} {d0 d1 : Byte}
    (h : s.draw = .answer (.ok d0 d1)) : cfgRd s k = k d0 (s.popDraw.record (readConfig d0)) := by
  simp [cfgRd, memRead1, transact_ok h, readConfig]

theorem rtdRd_ok {s : State} {k : Raw16 → State → State} {d0 d1 : Byte}
    (h : s.draw = .answer (.ok d0 d1)) :
    rtdRd s k = k (assembleRaw d0 d1) (s.popDraw.record (readRtd d0 d1)) := by
  simp [rtdRd, memRead2, transact_ok h, readRtd]

theorem faultRd_ok {s : State} {k : Byte → State → State} {d0 d1 : Byte}
    (h : s.draw = .answer (.ok d0 d1)) : faultRd s k = k d0 (s.popDraw.record (readFaultStatus d0)) := by
  simp [faultRd, memRead1, transact_ok h, readFaultStatus]

/-! ## The bus resource -/

theorem busAcquire_ok {s : State} {k : State → State} {d0 d1 : Byte} (h : s.draw = .answer (.ok d0 d1)) :
    busAcquire s k = k (s.popDraw.record (.acquire (.ok []))) := by
  simp [busAcquire, h]

theorem busAcquire_err {s : State} {k : State → State} {e : ErrVal} (h : s.draw = .answer (.err e)) :
    busAcquire s k =
      State.abort { s.popDraw.record (.acquire (.err e)) with life := .dead } .busInitError e := by
  simp [busAcquire, h]

/-- Everything an acquire can do. -/
theorem busAcquire_cases {P : State → Prop} (s : State) (k : State → State)
    (hok : P (k (s.popDraw.record (.acquire (.ok [])))))
    (herr : ∀ e, s.draw = .answer (.err e) →
      P (State.abort { s.popDraw.record (.acquire (.err e)) with life := .dead } .busInitError e))
    (hsilent : P { s.popDraw.record (.acquire .unanswered) with pending := some .acquire })
    (hinside : P (s.cutShort.record (.acquire .unanswered)))
    (hbefore : P s.cutShort) :
    P (busAcquire s k) := by
  unfold busAcquire
  split
  · exact hok
  · exact herr _ (by assumption)
  · exact hsilent
  · exact hinside
  · exact hbefore
  · exact hbefore

/-- Everything a release can do: it goes on whatever it answers, unless a reset comes. -/
theorem busRelease_cases {P : State → Prop} (s : State) (k : State → State)
    (hgo : ∀ o, s.draw.isReset = false → P (k (s.popDraw.record (.release o))))
    (hinside : P (s.cutShort.record (.release .unanswered)))
    (hbefore : P s.cutShort) :
    P (busRelease s k) := by
  unfold busRelease
  split
  · exact hgo _ (by simp_all [Draw.isReset])
  · exact hgo _ (by simp_all [Draw.isReset])
  · exact hgo _ (by simp_all [Draw.isReset])
  · exact hinside
  · exact hbefore
  · exact hbefore

/-! ## The timer -/

theorem timerTick_ofNat {n : Nat} (h : n + 1 < 2 ^ TW) :
    timerTick (BitVec.ofNat TW (n + 1)) = BitVec.ofNat TW n := by
  have hw : (2 : Nat) ^ TW = 4294967296 := by decide
  have hne : BitVec.ofNat TW (n + 1) ≠ 0 := by
    intro h0
    have h1 := congrArg BitVec.toNat h0
    rw [BitVec.toNat_ofNat, Nat.mod_eq_of_lt h] at h1
    exact Nat.succ_ne_zero n h1
  apply BitVec.eq_of_toNat_eq
  have h1 : (1 : Timer).toNat = 1 := by decide
  simp only [timerTick, hne, if_false, BitVec.toNat_sub, BitVec.toNat_ofNat, hw, h1] at h ⊢
  omega

/-- A timer loaded with `n` is at zero `n` cycles later. -/
theorem timerAfter_load (n : Nat) : timerAfter n (BitVec.ofNat TW n) = 0 := by
  simp [timerAfter, Nat.mod_le]

theorem cycles_lt (k : DelayKind) : Config.cycles k < 2 ^ TW :=
  Nat.lt_of_le_of_lt (Nat.min_le_left _ _) (by decide)

/-- The timer is at zero when a delay has ended. -/
@[simp] theorem delayTimer_eq_zero (d : DelayKind) : delayTimer d = 0 :=
  timerAfter_load _

/-- A delay that no reset cuts ends with the timer at zero. -/
theorem delay_undisturbed {d : DelayKind} {s : State} {k : State → State} (h : s.draw.isReset = false) :
    delay d s k = k { s.record (.delay d) with tmr := 0 } := by
  unfold delay
  rcases h' : s.draw with _ | _ | _ <;> simp_all [Draw.isReset]

/-- Everything a delay can do. -/
theorem delay_cases {P : State → Prop} (d : DelayKind) (s : State) (k : State → State)
    (hgo : s.draw.isReset = false → P (k { s.record (.delay d) with tmr := 0 }))
    (hinside : P (s.cutShort.record (.delay d)))
    (hbefore : P s.cutShort) :
    P (delay d s k) := by
  rcases h : s.draw with _ | _ | (_ | _ | _)
  · rw [delay_undisturbed (by simp [h, Draw.isReset])]; exact hgo (by simp [h, Draw.isReset])
  · rw [delay_undisturbed (by simp [h, Draw.isReset])]; exact hgo (by simp [h, Draw.isReset])
  · simp only [delay, h]; exact hbefore
  · simp only [delay, h]; exact hbefore
  · simp only [delay, h]; exact hinside

/-! ## Admission -/

theorem needUp_of_up {s : State} {k : State → State} (h : s.life = .up) : needUp s k = k s.startOp := by
  simp [needUp, h]

theorem needUp_of_not_up {s : State} {k : State → State} (h : s.life ≠ .up) :
    needUp s k = s.startOp.respond .notReady .none := by
  simp [needUp, h]

theorem needDown_of_down {s : State} {k : State → State} (h : s.life = .down) :
    needDown s k = k s.startOp := by
  simp [needDown, h]

theorem needDown_of_not_down {s : State} {k : State → State} (h : s.life ≠ .down) :
    needDown s k = s.startOp.respond .notReady .none := by
  simp [needDown, h]

/-! ## The command port and the step -/

theorem cmdReady_iff (s : State) : s.cmdReady = true ↔ s.seq = .idle ∧ s.pending = none := by
  simp [State.cmdReady]

/-- Something is fetched only from a ready port, as sampled on it, and only the queue moves. -/
theorem fetch_eq_some {s t : State} {p : Presented} (h : s.fetch = some (p, t)) :
    s.cmdReady = true ∧
      ∃ p' q, s.queue = p' :: q ∧ p = p'.onPorts s.params.num.fw ∧ t = { s with queue := q } := by
  unfold State.fetch at h
  split at h
  · cases h
  · split at h
    · cases h; exact ⟨by assumption, _, _, by assumption, rfl, rfl⟩
    · cases h

/-- An input that is no reset lets the port accept. -/
theorem resetDue_of_not_reset {s : State} (h : s.draw.isReset = false) : s.resetDue = false := by
  unfold State.resetDue
  rcases h' : s.draw with _ | _ | _ <;> simp_all [Draw.isReset]

/-- Everything a step can do. -/
theorem step_cases (s : State) :
    (s.resetPin = true ∧ step s = .next s.releaseReset) ∨
    (s.resetPin = false ∧ s.resetDue = true ∧ step s = .next s.cutShort) ∨
    (s.resetPin = false ∧ s.resetDue = false ∧ s.fetch = none ∧ step s = .next s) ∨
    (∃ p t i, s.resetPin = false ∧ s.resetDue = false ∧ s.fetch = some (p, t) ∧ decode p = .ok i ∧
      step s = exec i t) ∨
    (∃ p t e, s.resetPin = false ∧ s.resetDue = false ∧ s.fetch = some (p, t) ∧ decode p = .error e ∧
      step s = reject e t) := by
  unfold step
  cases hr : s.resetPin
  · cases hd : s.resetDue
    · rcases hf : s.fetch with _ | ⟨p, t⟩
      · simp
      · rcases hp : decode p with e | i <;> simp [hp]
    · simp
  · simp

end Sys2Proof.Machine
end

