-- ==== Sys2Proof/Laws/PerInstr.lean ====
section
/-! SUPPORT. The statement made for each instruction: the words that the encoder gives it are of its row of
spec/opcode_table.json. -/

namespace Sys2Proof.Laws

/-- The row of a command; none for the rows that are no commands. -/
def rowOf : Instr → Option CmdRow
  | .encode _ => operationRows[0]?
  | .decode _ => operationRows[1]?
  | .beginOp _ _ _ => operationRows[2]?
  | .endOp => operationRows[3]?
  | .setConfig _ => operationRows[4]?
  | .getConfig => operationRows[5]?
  | .clearFault => operationRows[6]?
  | .readFault => operationRows[7]?
  | .getRaw => operationRows[8]?
  | .getTemp => operationRows[9]?
  | .solve _ _ _ => operationRows[10]?
  | .resist _ _ => operationRows[11]?
  | .cvd _ _ => operationRows[12]?
  | .poly _ _ => operationRows[13]?
  | .reservedE _ => reservedRows[0]?
  | .reservedF _ => reservedRows[1]?
  | .cfgWr _ | .cfgRd | .rtdRd | .faultRd | .cfgByteEncode _ | .cfgByteDecode _ | .raw16 _ => none

/-- The fixed bits of the row hold in what the encoder gives: a command's match under its mask, the
write-select of an address byte, the two zero bits of an encoded configuration byte. -/
def RowMatch.Statement (i : Instr) : Prop :=
  i.wf = true →
    match encode i with
    | .cmd cw _ _ => ∃ r, rowOf i = some r ∧ r.accepts cw = true
    | .addrb ab _ => ab.getLsbD 7 = (match i with | .cfgWr _ => true | _ => false)
    | .cfgbEncode b => b &&& 0x22#8 = 0#8
    | .cfgbDecode _ => True
    | .raw16 _ => True

/-- Under a mask that keeps the bits from `k` up, an operand of `k` bits leaves no trace in the word. -/
theorem cmdWord_mask6 (op : BitVec 4) (v : BitVec 6) :
    cmdWord op (v.zeroExtend 16) &&& 0xFFFFFFC0#32 = cmdWord op 0#16 := by
  revert op v
  decide

theorem cmdWord_mask8 (op : BitVec 4) (v : BitVec 8) :
    cmdWord op (v.zeroExtend 16) &&& 0xFFFFFF00#32 = cmdWord op 0#16 := by
  revert op v
  decide

theorem cmdWord_mask15 (op : BitVec 4) (v : BitVec 15) :
    cmdWord op (v.zeroExtend 16) &&& 0xFFFF8000#32 = cmdWord op 0#16 := by
  apply BitVec.eq_of_getLsbD_eq
  intro j hj
  by_cases h : j < 15
  · have : (0xFFFF8000#32).getLsbD j = false := by revert j; decide
    simp only [BitVec.getLsbD_and, this, Bool.and_false]
    simp only [cmdWord, BitVec.getLsbD_append]
    simp [show j < 16 by omega]
  · have : (0xFFFF8000#32).getLsbD j = true := by revert j; decide
    simp only [BitVec.getLsbD_and, this, Bool.and_true]
    simp only [cmdWord, BitVec.getLsbD_append]
    by_cases h' : j < 16
    · simp [h', BitVec.getLsbD_of_ge v j (by omega)]
    · simp [h']

theorem RowMatch.encode (c : Configuration) : RowMatch.Statement (.encode c) :=
  fun _ => ⟨_, rfl, by simpa [CmdRow.accepts] using (cmdWord_mask6 0x0#4 _).trans (by decide)⟩
theorem RowMatch.decode (b : Byte) : RowMatch.Statement (.decode b) :=
  fun _ => ⟨_, rfl, by simpa [CmdRow.accepts] using (cmdWord_mask8 0x1#4 b).trans (by decide)⟩
theorem RowMatch.beginOp (c : Configuration) (rref rnom : Flt) : RowMatch.Statement (.beginOp c rref rnom) :=
  fun _ => ⟨_, rfl, by simpa [CmdRow.accepts] using (cmdWord_mask6 0x2#4 _).trans (by decide)⟩
theorem RowMatch.endOp : RowMatch.Statement .endOp := fun _ => ⟨_, rfl, by decide⟩
theorem RowMatch.setConfig (c : Configuration) : RowMatch.Statement (.setConfig c) :=
  fun _ => ⟨_, rfl, by simpa [CmdRow.accepts] using (cmdWord_mask6 0x4#4 _).trans (by decide)⟩
theorem RowMatch.getConfig : RowMatch.Statement .getConfig := fun _ => ⟨_, rfl, by decide⟩
theorem RowMatch.clearFault : RowMatch.Statement .clearFault := fun _ => ⟨_, rfl, by decide⟩
theorem RowMatch.readFault : RowMatch.Statement .readFault := fun _ => ⟨_, rfl, by decide⟩
theorem RowMatch.getRaw : RowMatch.Statement .getRaw := fun _ => ⟨_, rfl, by decide⟩
theorem RowMatch.getTemp : RowMatch.Statement .getTemp := fun _ => ⟨_, rfl, by decide⟩
theorem RowMatch.solve (ratio : Ratio) (rref rnom : Flt) : RowMatch.Statement (.solve ratio rref rnom) :=
  fun _ => ⟨_, rfl, by simpa [CmdRow.accepts] using (cmdWord_mask15 0xA#4 ratio).trans (by decide)⟩
theorem RowMatch.resist (ratio : Ratio) (rref : Flt) : RowMatch.Statement (.resist ratio rref) :=
  fun _ => ⟨_, rfl, by simpa [CmdRow.accepts] using (cmdWord_mask15 0xB#4 ratio).trans (by decide)⟩
theorem RowMatch.cvd (rrtd rnom : Flt) : RowMatch.Statement (.cvd rrtd rnom) := fun _ => ⟨_, rfl, by decide⟩
theorem RowMatch.poly (rrtd rnom : Flt) : RowMatch.Statement (.poly rrtd rnom) := fun _ => ⟨_, rfl, by decide⟩

/-- A word whose OP field is `op` is of the row that masks the OP field alone. -/
theorem word_of_opField {cw value : CmdWord} {op : BitVec 4} (h : cw.extractLsb' 28 4 = op)
    (hv : value = cmdWord op 0#16) : cw &&& 0xF0000000#32 = value := by
  subst hv h
  apply BitVec.eq_of_getLsbD_eq
  intro j hj
  by_cases h' : j < 28
  · have : (0xF0000000#32).getLsbD j = false := by revert j; decide
    simp only [BitVec.getLsbD_and, this, Bool.and_false]
    simp only [cmdWord, BitVec.getLsbD_append]
    split
    · simp
    · simp [show j - 16 < 12 by omega]
  · have : (0xF0000000#32).getLsbD j = true := by revert j; decide
    simp only [BitVec.getLsbD_and, this, Bool.and_true, cmdWord, BitVec.getLsbD_append]
    simp [show ¬ j < 16 by omega, show ¬ j - 16 < 12 by omega, show j - 16 - 12 < 4 by omega,
      show 28 + (j - 16 - 12) = j by omega]

theorem RowMatch.reservedE (cw : CmdWord) : RowMatch.Statement (.reservedE cw) := fun h =>
  ⟨_, rfl, by
    simpa [CmdRow.accepts] using word_of_opField (cw := cw) (op := 0xE#4) (by simpa [Instr.wf] using h) (by decide)⟩
theorem RowMatch.reservedF (cw : CmdWord) : RowMatch.Statement (.reservedF cw) := fun h =>
  ⟨_, rfl, by
    simpa [CmdRow.accepts] using word_of_opField (cw := cw) (op := 0xF#4) (by simpa [Instr.wf] using h) (by decide)⟩

theorem writeAddrByte_select (a : RegIndex) : (writeAddrByte a).getLsbD 7 = true := by
  revert a
  decide

theorem readAddrByte_select (a : RegIndex) : (readAddrByte a).getLsbD 7 = false := by
  revert a
  decide

theorem RowMatch.cfgWr (b : Byte) : RowMatch.Statement (.cfgWr b) := fun _ => writeAddrByte_select _
theorem RowMatch.cfgRd : RowMatch.Statement .cfgRd := fun _ => readAddrByte_select _
theorem RowMatch.rtdRd : RowMatch.Statement .rtdRd := fun _ => readAddrByte_select _
theorem RowMatch.faultRd : RowMatch.Statement .faultRd := fun _ => readAddrByte_select _
theorem RowMatch.cfgByteEncode (c : Configuration) : RowMatch.Statement (.cfgByteEncode c) := by
  intro _
  rcases c with ⟨_ | _, _ | _, _ | _, _ | _ | _ | _, _ | _⟩ <;> rfl
theorem RowMatch.cfgByteDecode (b : Byte) : RowMatch.Statement (.cfgByteDecode b) := fun _ => trivial
theorem RowMatch.raw16 (w : Raw16) : RowMatch.Statement (.raw16 w) := fun _ => trivial

end Sys2Proof.Laws
end

