-- ==== Sys2Proof/Tests/Slice0.lean ====
section
/-! SUPPORT. Tests of the model: expected results are the spec's own vectors (spec/95_test_vectors.md, named at
each test) or words and values worked out by hand from the rules; the smoke test of WellFormed; and for
every statement that has hypotheses a witness that meets them. -/

namespace Sys2Proof.Tests

open Sys2Proof.Machine

/-! ## Small states and inputs -/

/-- A brought-up block with parameters 430 and 100 and a given script. -/
def up (c : Configuration) (script : List Draw) : State :=
  { State.reset with life := .up, cfg := c, rref := 0x43D70000, rnom := 0x42C80000, script := script }

/-- A block after reset with a given script. -/
def fresh (script : List Draw) : State := { State.reset with script := script }

/-- An answer with success; for a 1-byte read the first byte counts. -/
def ok (d0 d1 : Byte) : Draw := .answer (.ok d0 d1)

/-- A failure. -/
def err (e : ErrVal) : Draw := .answer (.err e)

/-- The response and the events of an outcome. -/
def seen : Host.Outcome State Fault Refusal → Option (Option Response × List Event)
  | .next t => some (t.resp, t.events)
  | _ => none

/-- `{0,0,0,0,0}` -/
def c00 : Configuration := ⟨false, false, .twoFour, .noAction, .hz60⟩

/-- `{0,0,1,0,1}`, encoded 0x11. -/
def c11 : Configuration := ⟨false, false, .three, .noAction, .hz50⟩

/-- `{1,1,1,1,1}`, encoded 0xD5. -/
def cD5 : Configuration := ⟨true, true, .three, .automatic, .hz50⟩

/-! ## WellFormed: each check refuses an ill-formed term -/

theorem test_wf_refuses_reservedE : (Instr.reservedE 0xD0000000).wf = false := by decide
theorem test_wf_refuses_reservedF : (Instr.reservedF 0xE0000000).wf = false := by decide
theorem test_wf_accepts_reserved : (Instr.reservedE 0xE1234567).wf = true := by decide

/-! ## Decoding: words written out from R57, R60, R52, R54 -/

theorem test_decode_encode : decode (.cmd 0x0000002C 1 2) =
    .ok (.encode ⟨true, false, .three, .runManual, .hz60⟩) := by decide
theorem test_decode_decode : decode (.cmd 0x100000FF 1 2) = .ok (.decode 0xFF) := by decide
theorem test_decode_beginOp : decode (.cmd 0x20000009 0x43D70000 0x42C80000) =
    .ok (.beginOp c11 0x43D70000 0x42C80000) := by decide
theorem test_decode_endOp : decode (.cmd 0x30000000 1 2) = .ok .endOp := by decide
theorem test_decode_setConfig : decode (.cmd 0x4000003F 1 2) =
    .ok (.setConfig ⟨true, true, .three, .finishManual, .hz50⟩) := by decide
theorem test_decode_getConfig : decode (.cmd 0x50000000 1 2) = .ok .getConfig := by decide
theorem test_decode_clearFault : decode (.cmd 0x60000000 1 2) = .ok .clearFault := by decide
theorem test_decode_readFault : decode (.cmd 0x70000000 1 2) = .ok .readFault := by decide
theorem test_decode_getRaw : decode (.cmd 0x80000000 1 2) = .ok .getRaw := by decide
theorem test_decode_getTemp : decode (.cmd 0x90000000 1 2) = .ok .getTemp := by decide
theorem test_decode_solve : decode (.cmd 0xA0001DC5 1 2) = .ok (.solve 7621 1 2) := by decide
theorem test_decode_resist : decode (.cmd 0xB0007FFF 1 2) = .ok (.resist 32767 1) := by decide
theorem test_decode_cvd : decode (.cmd 0xC0000000 1 2) = .ok (.cvd 1 2) := by decide
theorem test_decode_poly : decode (.cmd 0xD0000000 1 2) = .ok (.poly 1 2) := by decide
theorem test_decode_reservedE : decode (.cmd 0xEFFFFFFF 1 2) = .ok (.reservedE 0xEFFFFFFF) := by decide
theorem test_decode_reservedF : decode (.cmd 0xF0000000 1 2) = .ok (.reservedF 0xF0000000) := by decide
theorem test_address_byte_of_write : ∀ a : RegIndex, a.zeroExtend 8 ||| 0x80#8 = writeAddrByte a := by decide
theorem test_address_byte_of_read : ∀ a : RegIndex, a.zeroExtend 8 = readAddrByte a := by decide
theorem test_read_is_no_write : ∀ a b : RegIndex, readAddrByte a ≠ writeAddrByte b := by decide +kernel
/-- The address byte of a write is the index with bit 7 set. -/
theorem test_decode_cfgWr :
    decode (.addrb (Config.addrConfig.zeroExtend 8 ||| 0x80#8) 0xD1) = .ok (.cfgWr 0xD1) := by
  rw [test_address_byte_of_write]
  simp [decode, decodeAddrByte]
theorem test_decode_cfgRd : decode (.addrb (readAddrByte Config.addrConfig) 0) = .ok .cfgRd := by
  simp [decode, decodeAddrByte, test_read_is_no_write]
/-- The reads are told apart by the register index alone. -/
theorem test_decode_rtdRd (h : readAddrByte Config.addrRtd ≠ readAddrByte Config.addrConfig) :
    decode (.addrb (readAddrByte Config.addrRtd) 0) = .ok .rtdRd := by
  simp [decode, decodeAddrByte, test_read_is_no_write, h]
theorem test_decode_faultRd (h : readAddrByte Config.addrFault ≠ readAddrByte Config.addrConfig)
    (h' : readAddrByte Config.addrFault ≠ readAddrByte Config.addrRtd) :
    decode (.addrb (readAddrByte Config.addrFault) 0) = .ok .faultRd := by
  simp [decode, decodeAddrByte, test_read_is_no_write, h, h']
theorem test_decode_cfgByteEncode : decode (.cfgbEncode 0x98) =
    .ok (.cfgByteEncode ⟨true, false, .three, .runManual, .hz60⟩) := by decide
theorem test_decode_cfgByteDecode : decode (.cfgbDecode 0x2A) = .ok (.cfgByteDecode 0x2A) := by decide
theorem test_decode_raw16 : decode (.raw16 0x3B8A) = .ok (.raw16 0x3B8A) := by decide

/-- V-W7, V-W8, V-W9, V-W10, V-W11: illegal words, rejected by name. -/
theorem test_decode_rejects :
    decode (.cmd 0x90000001 0 0) = .error .unusedImm ∧ decode (.cmd 0x00000040 0 0) = .error .unusedImm ∧
    decode (.cmd 0x10000100 0 0) = .error .unusedImm ∧ decode (.cmd 0xA0008000 0 0) = .error .unusedImm ∧
    decode (.cmd 0x50010000 0 0) = .error .reservedBits ∧
    decode (.cfgbEncode 0x20) = .error .writeOnlyBits := by decide

/-- The host's table words. -/
theorem test_decodeTableWord : decodeTableWord 32 0x80000000 = some .getRaw ∧
    decodeTableWord 16 0x3B8A = some (.raw16 0x3B8A) ∧ decodeTableWord 12 0 = none := by decide

/-! ## ConfigCodec -/

/-- V-C12 and V-C11. -/
theorem test_encode : seen (exec (.encode ⟨true, false, .three, .runManual, .hz60⟩) (fresh [])) =
    some (some ⟨.ok, .byte 0x98⟩, []) := by decide
/-- V-D11: bits 5 and 1 are ignored. -/
theorem test_decode : seen (exec (.decode 0xD3) (fresh [])) =
    some (some ⟨.ok, .config ⟨true, true, .three, .noAction, .hz50⟩⟩, []) := by decide
/-- V-D8: the high bit of the fault-detection field is dropped. -/
theorem test_decode_lossy : seen (exec (.decode 0x0C) (fresh [])) =
    some (some ⟨.ok, .config ⟨false, false, .twoFour, .automatic, .hz60⟩⟩, []) := by decide
theorem test_cfgByteEncode : exec (.cfgByteEncode cD5) (fresh []) =
    .next ((fresh []).delivered (.byte 0xD5) [] 0) := rfl
theorem test_cfgByteDecode : exec (.cfgByteDecode 0x55) (fresh []) =
    .next ((fresh []).delivered (.config ⟨false, true, .three, .automatic, .hz50⟩) [] 0) := rfl

/-! ## Transactions and the raw word -/

/-- V-R10: the byte received first is the more significant one. -/
theorem test_rtdRd : seen (exec .rtdRd (up c00 [ok 0x00 0xFF])) = some (none, [readRtd 0x00 0xFF]) := rfl
theorem test_raw16 : exec (.raw16 0x3B8A) (fresh []) = .next ((fresh []).delivered (.ratio 7621) [] 0) := rfl
theorem test_cfgWr_fails : seen (exec (.cfgWr 0xD1) (up c00 [err 7])) =
    some (some ⟨.transportError, .error 7⟩, [(wrote 0xD1).withOutcome (.err 7)]) := rfl
theorem test_cfgRd : seen (exec .cfgRd (up c00 [ok 0x91 0])) = some (none, [readConfig 0x91]) := rfl
theorem test_faultRd : seen (exec .faultRd (up c00 [ok 0xA4 0])) = some (none, [readFaultStatus 0xA4]) := rfl

/-! ## Acquisition -/

/-- V-Q5: step 2 writes back the byte read, not `encode(CFG)`. -/
theorem test_getRaw_readback :
    seen (exec .getRaw (up c11 [ok 0 0, ok 0xFF 0, ok 0 0, ok 0x40 0x00, ok 0 0])) =
    some (some ⟨.ok, .ratio 8192⟩, [wrote 0x91, .delay .bias, readConfig 0xFF, wrote 0xFF, .delay .conv,
      readRtd 0x40 0x00, wrote 0x11]) := rfl
/-- V-X4: the raw read fails, and nothing follows it. -/
theorem test_getRaw_fails :
    seen (exec .getRaw (up c00 [ok 0 0, ok 0x80 0, ok 0 0, err 9])) =
    some (some ⟨.transportError, .error 9⟩, [wrote 0x80, .delay .bias, readConfig 0x80, wrote 0xA0,
      .delay .conv, (readRtd 0 0).withOutcome (.err 9)]) := rfl
/-- P2 step 4 (V-S6) at parameters 430 and 100 in place of 400: the events of V-Q4. -/
theorem test_getTemp_events :
    (match exec .getTemp (up cD5 [ok 0x33 0x33, ok 0 0]) with | .next t => t.events | _ => []) =
    [readRtd 0x33 0x33, wrote 0xD5] := rfl
/-- P1 step 2 (V-S3): ratio 7621 at 430 and 100 gives 0x3C949FE4. -/
theorem test_getTemp_value :
    (match exec .getTemp (up cD5 [ok 0x3B 0x8A, ok 0 0]) with | .next t => t.resp | _ => none) =
    some ⟨.ok, .float 0x3C949FE4⟩ := by decide

/-! ## FaultManager -/

/-- V-F3: bit 5 is written back as it was read. -/
theorem test_clearFault : seen (exec .clearFault (up c00 [ok 0xFF 0, ok 0 0])) =
    some (some ⟨.ok, .none⟩, [readConfig 0xFF, wrote 0xFD]) := rfl
/-- V-F5: no write follows a failed read. -/
theorem test_clearFault_fails : seen (exec .clearFault (up c00 [err 3, ok 0 0])) =
    some (some ⟨.transportError, .error 3⟩, [(readConfig 0).withOutcome (.err 3)]) := rfl
/-- V-F8. -/
theorem test_readFault : seen (exec .readFault (up c00 [ok 0xA4 0])) =
    some (some ⟨.ok, .byte 0xA4⟩, [readFaultStatus 0xA4]) := rfl

/-! ## Lifecycle -/

/-- V-L1. -/
theorem test_begin : seen (exec (.beginOp c11 0x43D70000 0x42C80000) (fresh [ok 0 0, ok 0 0])) =
    some (some ⟨.ok, .none⟩, [.acquire (.ok []), wrote 0x11]) := rfl
/-- V-L2: a failed acquire leaves the instance Dead. -/
theorem test_begin_dead :
    (match exec (.beginOp c11 1 2) (fresh [err 4]) with | .next t => (t.life, t.resp) | _ => (.up, none)) =
    (.dead, some ⟨.busInitError, .error 4⟩) := by decide
/-- V-L9: the release's answer is ignored. -/
theorem test_end : seen (exec .endOp (up c00 [err 5])) =
    some (some ⟨.ok, .none⟩, [.release (.err 5)]) := rfl
/-- V-L6: CFG is new after a failed write. -/
theorem test_setConfig :
    (match exec (.setConfig ⟨true, true, .twoFour, .noAction, .hz60⟩) (up c00 [err 6]) with
      | .next t => (t.cfg, t.resp) | _ => (c00, none)) =
    (⟨true, true, .twoFour, .noAction, .hz60⟩, some ⟨.transportError, .error 6⟩) := by decide
/-- V-L7: the answer is the chip's byte, decoded. -/
theorem test_getConfig : seen (exec .getConfig (up c00 [ok 0xDD 0])) =
    some (some ⟨.ok, .config cD5⟩, [readConfig 0xDD]) := rfl
/-- V-W4: GETTEMP before bring-up. -/
theorem test_not_ready : seen (exec .getTemp (fresh [ok 0 0])) = some (some ⟨.notReady, .none⟩, []) := by decide
/-- V-W2. -/
theorem test_begin_twice : seen (exec (.beginOp c11 1 2) (up c00 [])) =
    some (some ⟨.notReady, .none⟩, []) := by decide
theorem test_reserved : seen (exec (.reservedF 0xF0000000) (fresh [])) =
    some (some ⟨.badCommand, .none⟩, []) := by decide

/-! ## TemperatureSolver, default NUM -/

/-- V-S3: the primary branch just above the nominal resistance. -/
theorem test_solve_cvd : solve binary32 polyPrinted 7621 0x43D70000 0x42C80000 = 0x3C949FE4 := by decide
/-- V-S17: a negative discriminant is caught by the branch test. -/
theorem test_solve_nan : solve binary32 polyPrinted 5802 0x45866000 0x42C80000 = 0x47512CAB := by decide
/-- V-S12: the product is rounded. -/
theorem test_resist : resist binary32 32767 0x45866000 = 0x45865EF3 := by decide
/-- P4 step 5 (V-T2): minus zero at the nominal resistance. -/
theorem test_cvd : cvd binary32 0x42C80000 0x42C80000 = 0x80000000 := by decide
/-- P4 step 6 (V-T1), and V-T1 with the negated pair. -/
theorem test_poly : poly binary32 polyPrinted 0x42A00000 0x42C80000 = 0xC22E15FC ∧
    poly binary32 polyNegated 0x42A00000 0x42C80000 = 0xC24B1694 := by decide
/-- V-S15 in binary64: -123.588221875 is 0xC05EE5A56D5CFAAD. -/
theorem test_solve_b64 :
    solve binary64 polyPrinted 4096 0x4079000000000000 0x4059000000000000 = 0xC05EE5A56D5CFAAD := by decide +kernel

/-- V-S15 as a command of a block built with binary64. -/
theorem test_solve_command_b64 :
    (match exec (.solve 4096 0x4079000000000000 0x4059000000000000)
        (State.resetWith ⟨.binary64, polyPrinted, 32⟩) with
      | .next t => t.resp | _ => none) = some ⟨.ok, .float 0xC05EE5A56D5CFAAD⟩ := by decide +kernel
/-- V-T1 as a command of a block built with the negated pair. -/
theorem test_poly_command_negated :
    (match exec (.poly 0x42A00000 0x42C80000) (State.resetWith ⟨.binary32, polyNegated, 32⟩) with
      | .next t => t.resp | _ => none) = some ⟨.ok, .float 0xC24B1694⟩ := by decide

/-! ## A reset inside an operation (R170) -/

/-- Inside the bias delay: the delay has begun, and nothing follows. -/
theorem test_reset_inside_delay :
    (match exec .getRaw (up c00 [ok 0 0, .reset .inside]) with
      | .next t => (t.resp, t.events, t.resetPin) | _ => (none, [], false)) =
    (none, [wrote 0x80, .delay .bias], true) := rfl
/-- The registers have their reset values while the reset input is asserted, and on its release. -/
theorem test_reset_registers :
    (match exec .getRaw (up c00 [ok 0 0, .reset .inside]) with
      | .next t => t.resetPin && decide t.AtReset &&
        (match step t with | .next u => !u.resetPin && decide u.AtReset | _ => false)
      | _ => false) = true := by decide
/-- Between the two answered transactions of CLEARFAULT: no write follows. -/
theorem test_reset_between_events :
    (match exec .clearFault (up c00 [ok 0xD3 0, .reset .before]) with
      | .next t => (t.resp, t.events, t.resetPin) | _ => (none, [], false)) =
    (none, [readConfig 0xD3], true) := rfl
/-- At END's release: no OK is given. -/
theorem test_reset_at_release :
    (match exec .endOp (up c00 [.reset .inside]) with
      | .next t => (t.resp, t.events, t.resetPin) | _ => (none, [], false)) =
    (none, [.release .unanswered], true) := rfl
/-- After the response: the response stands until the reset. -/
theorem test_reset_after_response : seen (exec .endOp (up c00 [ok 0 0, .reset .between])) =
    some (some ⟨.ok, .none⟩, [.release (.ok [])]) := rfl
/-- An operation accepted and ended before its response. -/
theorem test_reset_after_acceptance :
    seen (step (State.present (fresh []) (.cmd 0x30000000 0 0))) = some (some ⟨.ok, .none⟩, []) ∧
    seen (step { State.present (fresh []) (.cmd 0x30000000 0 0) with script := [.reset .before] }) =
      some (none, []) := by decide

/-! ## The step -/

/-- V-W12: END from reset, presented as a table word, is the first command run. -/
theorem test_step_end : seen (step (State.reset.withFetchWord 32 0x30000000)) =
    some (some ⟨.ok, .none⟩, []) := by decide
/-- V-W11: BAD_COMMAND is tested before NOT_READY. -/
theorem test_step_bad_command : seen (step (State.reset.withFetchWord 32 0x50010000)) =
    some (some ⟨.badCommand, .none⟩, []) := by decide

/-! ## The reference chip (R37) -/

/-- P3 step 2 and step 3: after the failed one-shot write the fixture still holds 0x90, bias on. -/
theorem test_refChip_failed_write : (RefChip.mk 0x10 0x4000 0).after (.delay .bias) =
    some (RefChip.mk 0x10 0x4000 0) := rfl
theorem test_refChip_drops_write_only_bits : ((RefChip.mk 0 0 0).written 0xFF).cfgreg = 0xDD := by decide

/-! ## Witnesses: for every statement with hypotheses, something that meets them all -/

/-- A state in which every one of five draws to come is a success. -/
def allOk (c : Configuration) : State :=
  up c [ok 0x80 0, ok 0x80 0, ok 0x3B 0x8A, ok 0x3B 0x8A, ok 0 0]

theorem witness_DecodeOfEncodeIsTheInstruction : (Instr.reservedE 0xE0000000).wf = true := by decide
theorem witness_EncodeOfDecodeIsTheWord :
    decode (.cmd 0x80000000 0 0) = .ok .getRaw ∧
    decode (.addrb (readAddrByte Config.addrConfig) 0) = .ok .cfgRd ∧
    decode (.cfgbEncode 0xDD) = .ok (.cfgByteEncode ⟨true, true, .three, .finishManual, .hz50⟩) ∧
    decode (.cfgbDecode 0xFF) = .ok (.cfgByteDecode 0xFF) ∧ decode (.raw16 1) = .ok (.raw16 1) :=
  ⟨by decide, test_decode_cfgRd, by decide, by decide, by decide⟩
theorem witness_IllegalCommandWordsAnswerBadCommand :
    ((State.reset.present (.cmd 0x00000040 0 0)).resetPin = false ∧
      (State.reset.present (.cmd 0x00000040 0 0)).draw.isReset = false ∧
      (State.reset.present (.cmd 0x00000040 0 0)).cmdReady = true ∧
      (State.reset.present (.cmd 0x00000040 0 0)).queue = [.cmd 0x00000040 0 0]) ∧
    (∀ r ∈ operationRows, r.accepts 0x00000040 = false) ∧
    (∃ r ∈ operationRows, r.accepts 0x0000003F = true) := by
  refine ⟨⟨rfl, rfl, rfl, rfl⟩, by decide, by decide⟩
/-- For every statement about a response that a reset could forestall, with the number of draws made before
it: 0 for the pure operations (EncodeAnswersTheConfigurationByte, DecodeAnswersTheFiveFields,
SolverOperationsAnswerTheirFormulas, SolveRunsOnTheConfiguredNumerics), the refusals
(OperationsNotAdmittedChangeNothing, ReservedRowsAnswerBadCommand) and an END that releases nothing; 1 and 2
for the operations with as many draws, answered or failing; and those of an acquisition. -/
theorem witness_undisturbed :
    (fresh []).undisturbed 0 ∧ (fresh [err 1]).undisturbed 1 ∧ (fresh [ok 0 0, ok 0 0]).undisturbed 2 ∧
    (fresh [ok 0 0, err 1]).undisturbed 2 ∧ (up c00 []).undisturbed 0 ∧ (up c00 [ok 4 0]).undisturbed 1 ∧
    (up c00 [err 1]).undisturbed 1 ∧ (up c00 [ok 0xD3 0, ok 0 0]).undisturbed 2 ∧
    (up c00 [ok 0xD3 0, err 1]).undisturbed 2 ∧ (up c00 [ok 0 0, .reset .between]).undisturbed 1 ∧
    (allOk c00).undisturbed 5 ∧ (allOk cD5).undisturbed 2 := by decide
theorem witness_PureOperationsDependOnOperandsOnly : (Instr.encode c00).isPure = true ∧
    (fresh []).params = Params.default ∧ (fresh []).undisturbed 0 := by decide
theorem witness_GetRawRunsItsSequence :
    (∀ c ∈ [c00, ⟨false, true, .three, .noAction, .hz50⟩, ⟨true, false, .twoFour, .automatic, .hz60⟩, cD5],
      (allOk c).okDraws (acquisitionDraws (allOk c).cfg) ∧
        (allOk c).undisturbed (acquisitionDraws (allOk c).cfg)) ∧
    (allOk c00).life = .up ∧ (allOk c00).seq = .idle ∧ (allOk c00).tmr = 0 := by decide
theorem witness_GetTempRunsItsSequence :
    (allOk cD5).life = .up ∧ (allOk cD5).seq = .idle ∧ (allOk cD5).tmr = 0 ∧
      (allOk cD5).okDraws (acquisitionDraws (allOk cD5).cfg) := by decide
theorem witness_GetTempIsGetRawThenSolver : ∃ u, exec .getRaw (allOk c00) = .next u := ⟨_, rfl⟩
theorem witness_FailedTransactionEndsAcquisition :
    let s := up c00 [ok 0 0, ok 0x80 0, err 9]
    s.life = .up ∧ s.seq = .idle ∧ s.tmr = 0 ∧ 2 < acquisitionDraws s.cfg ∧ s.okDraws 2 ∧
      s.upcoming 2 = .answer (.err 9) ∧ s.undisturbed 3 := by decide
theorem witness_StateWalksTheChain :
    ∃ t, exec .getRaw (allOk cD5) = .next t ∧ t.resp = some ⟨.ok, .ratio 16384⟩ := ⟨_, rfl, by decide⟩
theorem witness_DelaysStandWhereTheyMust :
    ∃ t before o rest e0 e1 rest', exec .getRaw (allOk c00) = .next t ∧
      t.events = before ++ .txn (Request.read Config.addrRtd 2) o :: rest ∧ t.events = e0 :: e1 :: rest' :=
  ⟨_, [_, _, _, _, _], _, _, _, _, _, rfl, rfl, rfl⟩
theorem witness_FaultFlagIsDiscarded :
    ∃ before after t t', before.length = rawReadDraw (up cD5 []).cfg ∧
      exec .getRaw { up cD5 [] with script := before ++ .answer (.ok 0x33 0x33) :: after } = .next t ∧
      exec .getRaw { up cD5 [] with script := before ++ .answer (.ok 0x33 (0x33 ^^^ 1#8)) :: after } = .next t' :=
  ⟨[], [ok 0 0], _, _, rfl, rfl, rfl⟩
theorem witness_DelaysReachTheirBounds : 0 < Config.cycles .bias := by
  have h : 0 < Config.tclk := by unfold Config.tclk; omega
  have h2 : 0 < (Config.bound .bias + Config.tclk - 1) / Config.tclk := by
    apply Nat.div_pos _ h
    simp only [Config.bound]
    omega
  have h3 : 0 < 2 ^ TW - 1 := by decide
  unfold Config.cycles
  omega
theorem witness_ClearFaultWritesTheByteReadWithBitOneCleared :
    (up c00 [ok 0xD3 0, ok 0 0]).life = .up ∧ (up c00 [ok 0xD3 0, ok 0 0]).upcoming 0 = ok 0xD3 0 ∧
    (up c00 [ok 0xD3 0, ok 0 0]).upcoming 1 = ok 0 0 ∧ (up c00 [ok 0xD3 0, err 1]).upcoming 1 = err 1 ∧
    (up c00 [ok 0xD3 0, err 1]).seq = .idle ∧ (up c00 [ok 0xD3 0, err 1]).tmr = 0 ∧
    (up c00 [err 1]).upcoming 0 = err 1 ∧ (up c00 [err 1]).seq = .idle ∧ (up c00 [err 1]).tmr = 0 ∧
    (fresh []).life ≠ .up := by decide
theorem witness_ReadFaultPassesTheByteThrough :
    (up c00 [ok 4 0]).life = .up ∧ (up c00 [ok 4 0]).upcoming 0 = ok 4 0 ∧
    (up c00 [err 1]).upcoming 0 = err 1 ∧ (up c00 [err 1]).seq = .idle ∧ (up c00 [err 1]).tmr = 0 ∧ (fresh []).life ≠ .up := by decide
theorem witness_BeginBringsUp :
    (fresh [ok 0 0, ok 0 0]).life = .down ∧ (fresh [ok 0 0, ok 0 0]).upcoming 0 = ok 0 0 ∧
    (fresh [ok 0 0, ok 0 0]).upcoming 1 = ok 0 0 ∧ (fresh [ok 0 0, err 1]).upcoming 1 = err 1 ∧
    (fresh [err 1]).upcoming 0 = err 1 ∧ (fresh [err 1]).seq = .idle ∧ (fresh [err 1]).tmr = 0 ∧
    (up c00 []).life ≠ .down := by decide
theorem witness_EndTearsDownFromEveryState :
    (fresh []).life ≠ .up ∧ (fresh []).undisturbed 0 ∧ (up c00 [err 5]).life = .up ∧
    (up c00 [err 5]).upcoming 0 = err 5 ∧ (up c00 [err 5]).undisturbed 1 ∧
    (up c00 [.silent]).upcoming 0 = .silent ∧ (up c00 [.silent]).undisturbed 1 := by decide
theorem witness_SetConfigWritesRegisterThenChip :
    (up c00 [ok 0 0]).life = .up ∧ (up c00 [ok 0 0]).upcoming 0 = ok 0 0 ∧
    (up c00 [err 1]).upcoming 0 = err 1 ∧ (up c00 [err 1]).seq = .idle ∧ (up c00 [err 1]).tmr = 0 ∧ (fresh []).life ≠ .up := by decide
theorem witness_SetConfigTwiceSucceeds :
    ∃ t u, exec (.setConfig cD5) (up c00 [ok 0 0, ok 0 0]) = .next t ∧ t.resp = some ⟨.ok, .none⟩ ∧
      exec (.setConfig cD5) t = .next u ∧ u.resp = some ⟨.ok, .none⟩ := ⟨_, _, rfl, rfl, rfl, rfl⟩
theorem witness_GetConfigAnswersTheChipsByte :
    (up c00 [ok 0xD1 0]).life = .up ∧ (up c00 [ok 0xD1 0]).upcoming 0 = ok 0xD1 0 ∧
    (up c00 [err 1]).upcoming 0 = err 1 ∧ (up c00 [err 1]).seq = .idle ∧ (up c00 [err 1]).tmr = 0 ∧ (fresh []).life ≠ .up := by decide
theorem witness_OperationsNotAdmittedChangeNothing :
    Instr.getTemp.needsUp = true ∧ (fresh []).life ≠ .up ∧ (up c00 []).life ≠ .down := by decide
theorem witness_TransactionRowsComplete : (up c00 [ok 0x3B 0x8A]).upcoming 0 = .answer (.ok 0x3B 0x8A) := by decide
theorem witness_AnErrorIsTheLastEvent :
    ∃ t before ev after, exec .readFault (up c00 [err 7]) = .next t ∧ t.events = before ++ ev :: after ∧
      ev.failedWith = some 7 ∧ t.resp = some ⟨.transportError, .error 7⟩ := ⟨_, [], _, [], rfl, rfl, rfl, rfl⟩
theorem witness_StateAfterAnError :
    (∃ t, exec (.setConfig cD5) (up c00 [err 7]) = .next t ∧ t.resp = some ⟨.transportError, .error 7⟩) ∧
    (∃ t, exec (.beginOp c11 1 2) (fresh [err 7]) = .next t ∧ t.resp = some ⟨.busInitError, .error 7⟩) ∧
    (∃ t, exec (.beginOp c11 1 2) (fresh [ok 0 0, err 7]) = .next t ∧ t.resp = some ⟨.transportError, .error 7⟩) ∧
    (∃ t, exec .getRaw (up c00 [err 7]) = .next t ∧ t.resp = some ⟨.transportError, .error 7⟩) :=
  ⟨⟨_, rfl, rfl⟩, ⟨_, rfl, rfl⟩, ⟨_, rfl, rfl⟩, ⟨_, rfl, rfl⟩⟩
theorem witness_OperationsRespondUnlessUnanswered :
    Instr.getRaw.isOperation = true ∧ (allOk c00).pending = none ∧ (allOk c00).resetPin = false ∧
    (∃ t, exec .getRaw (up c00 [.silent]) = .next t ∧ t.resp = none ∧ t.resetPin = false) ∧
    (∃ t, exec .getRaw (up c00 [.reset .before]) = .next t ∧ t.resp = none ∧ t.resetPin = true) ∧
    (∀ k < 6, ∃ r, (allOk c00).upcoming k = .answer r) := by
  refine ⟨rfl, rfl, rfl, ⟨_, rfl, rfl, rfl⟩, ⟨_, rfl, rfl, rfl⟩, ?_⟩
  intro k hk
  interval_cases k <;> exact ⟨_, rfl⟩
theorem witness_BusyBlockAcceptsNothing :
    (∃ t, exec .getRaw (up cD5 [.silent]) = .next t ∧ t.resetPin = false ∧ t.pending ≠ none ∧
      t.seq = .readBack ∧ t.draw.isReset = false) ∧
    (∃ t, exec .getRaw (up cD5 [.silent, .reset .before]) = .next t ∧ t.resetPin = false ∧ t.pending ≠ none ∧
      t.seq = .readBack ∧ t.draw.isReset = true) :=
  ⟨⟨_, rfl, by decide, Option.some_ne_none _, by decide, rfl⟩,
    ⟨_, rfl, by decide, Option.some_ne_none _, by decide, rfl⟩⟩
theorem witness_StepRunsTheDecodedInstruction :
    let s := State.reset.present (.cmd 0x30000000 0 0)
    s.resetPin = false ∧ s.resetDue = false ∧ s.seq = .idle ∧ s.pending = none ∧
      s.queue = [.cmd 0x30000000 0 0] ∧
      decode (Presented.onPorts s.params.num.fw (.cmd 0x30000000 0 0)) = .ok .endOp ∧
      State.reset.draw.isReset = false ∧ State.reset.queue = [] := by decide
theorem witness_ResetInputEndsTheOperation :
    (∃ t, exec .getRaw (up cD5 [.reset .inside]) = .next t ∧ t.resetPin = true) ∧
    State.resetDue (fresh [.reset .between]) = true ∧ State.resetPin (fresh [.reset .between]) = false ∧
    ∃ t, exec .getRaw (up cD5 [.silent, .reset .inside]) = .next t ∧ t.pending ≠ none ∧
      t.resetPin = false ∧ t.resetDue = true :=
  ⟨⟨_, rfl, rfl⟩, rfl, rfl, _, rfl, Option.some_ne_none _, rfl, rfl⟩
theorem witness_StepKeepsTheStateSettled :
    (State.reset.present (.cmd 0x30000000 0 0)).Settled ∧
    ∃ t, step (State.reset.present (.cmd 0x30000000 0 0)) = .next t :=
  ⟨⟨rfl, fun _ => rfl, fun h => absurd rfl h, fun h => absurd h (by decide), fun h => absurd rfl h,
    fun h => absurd (show (none : Option Pending) = some .acquire from h) (by decide),
    BitVec.isLt _, BitVec.isLt _⟩, _, rfl⟩
theorem witness_LifeMovesByBeginAndEndOnly : (∃ t, exec .endOp (fresh []) = .next t) ∧
    State.resetPin { up c00 [] with resetPin := true } = true ∧
    State.resetDue (up c00 [.reset .between]) = true ∧
    (∃ t, exec .endOp (up c00 [.reset .inside]) = .next t ∧ t.resetPin = true ∧ t.life = .down) :=
  ⟨⟨_, rfl⟩, rfl, rfl, _, rfl, rfl, rfl⟩
theorem witness_UnspecifiedRegistersAreNotRead :
    (fresh [ok 0 0, ok 0 0]).life ≠ .up ∧
    ∃ t t', exec (.beginOp c11 1 2) (fresh [ok 0 0, ok 0 0]) = .next t ∧ t.life = .up ∧
      exec (.beginOp c11 1 2) { fresh [ok 0 0, ok 0 0] with cfg := cD5, rref := 5, rnom := 6 } = .next t' :=
  ⟨by decide, _, _, rfl, rfl, rfl⟩
theorem witness_BranchTestIsStrictlyPositive :
    takesCvd binary32 (cvd binary32 (resist binary32 7621 0x43D70000) 0x42C80000) = true ∧
    takesCvd binary32 (cvd binary32 (resist binary32 5802 0x45866000) 0x42C80000) = false := by decide
theorem witness_ParametersWrittenByBeginReadByGetTemp :
    (∃ t, exec (.beginOp c11 5 6) { fresh [ok 0 0, ok 0 0] with rref := 1, rnom := 2 } = .next t ∧ t.rref ≠ 1) ∧
    (∃ t t', exec (.beginOp c11 5 6) (fresh []) = .next t ∧ exec (.beginOp c11 7 8) (fresh []) = .next t') ∧
    (∃ t t', exec .getRaw (allOk c00) = .next t ∧
      exec .getRaw { allOk c00 with rref := 1, rnom := 2 } = .next t') :=
  ⟨⟨_, rfl, by decide⟩, ⟨_, _, rfl, rfl⟩, _, _, rfl, rfl⟩
theorem witness_CfgWrittenByBeginAndSetConfigReadByAcquisition :
    (∃ t, exec (.setConfig cD5) (allOk c00) = .next t ∧ t.cfg ≠ (allOk c00).cfg) ∧
    (∃ t t', exec .clearFault (allOk c00) = .next t ∧ exec .clearFault { allOk c00 with cfg := cD5 } = .next t') :=
  ⟨⟨_, rfl, by decide⟩, _, _, rfl, rfl⟩
theorem witness_OnlyTheFourTransactionsAreIssued :
    ∃ t ev r, exec .readFault (allOk c00) = .next t ∧ ev ∈ t.events ∧ ev.request = some r ∧
      r = Request.read Config.addrFault 1 :=
  ⟨_, readFaultStatus 0x80, _, rfl, List.mem_singleton.2 rfl, rfl, rfl⟩
theorem witness_SuccessBringsTheChipInLine :
    ∃ t chip', exec (.setConfig c11) (allOk c00) = .next t ∧ t.resp = some ⟨.ok, .none⟩ ∧
      (RefChip.mk 0xFF 0 0).replay t.events = some chip' := by
  refine ⟨_, (RefChip.mk 0xFF 0 0).written (encodeConfig c11), rfl, rfl, ?_⟩
  show (RefChip.mk 0xFF 0 0).replay [wrote (encodeConfig c11)] = _
  simp [RefChip.replay, RefChip.after, wrote, Request.write]
theorem witness_PrimaryModelSolvesTheQuadratic :
    (0 : ℝ) < 100 ∧ 0 ≤ z2 realNum + z3 realNum 100 * 100 := by
  refine ⟨by norm_num, ?_⟩
  simp only [z2, z3, realNum, DecLit.real, cvdA, cvdB, intLit]
  norm_num
theorem witness_ResistanceStaysBelowReference : (0 : ℝ) < 430 := by norm_num
theorem witness_SumsAndProductsAreNearest :
    value32 0x3F800000 = some 1 ∧ value32 0x40000000 = some 2 ∧
    value32 (binary32.fadd 0x3F800000 0x40000000) = some 3 ∧
    value32 (binary32.fmul 0x3F800000 0x40000000) = some 2 := by decide +kernel
theorem witness_SolveNeverAnswersNaN :
    value32 0x43D70000 = some 430 ∧ value32 0x42C80000 = some 100 ∧ (0 : ℚ) < 430 ∧ (0 : ℚ) < 100 := by
  decide +kernel
theorem witness_ConfigurationNeverChanges : ∃ t, step State.reset = .next t := ⟨_, rfl⟩
theorem witness_SolveRunsOnTheConfiguredNumerics :
    State.reset.params.num = .binary32 ∧ State.reset.undisturbed 0 ∧
    (State.resetWith ⟨.binary64, polyNegated, 8⟩).params.num = .binary64 ∧
    (State.resetWith ⟨.binary64, polyNegated, 8⟩).undisturbed 0 := by decide
theorem witness_ResetOperationHasNoResponse :
    ∃ t, exec .getRaw (up c00 [ok 0 0, .reset .inside]) = .next t ∧ t.resetPin = true ∧
      Instr.getRaw.isOperation = true ∧ (up c00 [ok 0 0, .reset .inside]).resetPin = false :=
  ⟨_, rfl, rfl, rfl, rfl⟩
/-- One point of each kind: before the first event, inside a request, inside a delay, before a delay, between
two answered transactions, and before the response. -/
theorem witness_ResetEndsAcquisitionAnywhere :
    (up c00 [.reset .between]).upcoming 0 = .reset .between ∧
    (up c00 [.reset .inside]).upcoming 0 = .reset .inside ∧
    (up c00 [ok 0 0, .reset .inside]).okDraws 1 ∧
    (up c00 [ok 0 0, .reset .inside]).upcoming 1 = .reset .inside ∧
    (up c00 [ok 0 0, .reset .before]).upcoming 1 = .reset .before ∧
    (up cD5 [ok 0 0, .reset .before]).okDraws 1 ∧ 1 < acquisitionDraws (up c00 []).cfg ∧
    (up cD5 [ok 0 0, ok 0 0, .reset .before]).okDraws 2 ∧
    (up cD5 [ok 0 0, ok 0 0, .reset .before]).upcoming 2 = .reset .before ∧
    acquisitionDraws (up cD5 []).cfg = 2 := by decide

end Sys2Proof.Tests
end

/-! PROOF. Family 00_scope: the configuration of the block is fixed for its life (O56), and SOLVE runs on
the numerics and the coefficients that it names (O57). -/

namespace Sys2Proof.Machine

/-! ## Each shared operation keeps the configuration where its continuation does -/

@[simp] theorem transact_params {r : Request} {s : State} {k : Byte → Byte → State → State}
    (hk : ∀ d0 d1 u, (k d0 d1 u).params = u.params) : (transact r s k).params = s.params :=
  transact_cases (P := fun t => t.params = s.params) r s k
    (hok := fun _ _ _ => hk _ _ _)
    (herr := fun _ _ => abort_params _ _ _)
    (hsilent := fun _ => rfl)
    (hinside := rfl)
    (hbefore := rfl)

@[simp] theorem cfgWr_params {b : Byte} {s : State} {k : State → State}
    (hk : ∀ u, (k u).params = u.params) : (cfgWr b s k).params = s.params :=
  transact_params fun _ _ => hk

@[simp] theorem cfgRd_params {s : State} {k : Byte → State → State}
    (hk : ∀ b u, (k b u).params = u.params) : (cfgRd s k).params = s.params :=
  transact_params fun d0 _ => hk d0

@[simp] theorem rtdRd_params {s : State} {k : Raw16 → State → State}
    (hk : ∀ w u, (k w u).params = u.params) : (rtdRd s k).params = s.params :=
  transact_params fun d0 d1 => hk (assembleRaw d0 d1)

@[simp] theorem faultRd_params {s : State} {k : Byte → State → State}
    (hk : ∀ b u, (k b u).params = u.params) : (faultRd s k).params = s.params :=
  transact_params fun d0 _ => hk d0

@[simp] theorem busAcquire_params {s : State} {k : State → State}
    (hk : ∀ u, (k u).params = u.params) : (busAcquire s k).params = s.params :=
  busAcquire_cases (P := fun t => t.params = s.params) s k
    (hok := hk _)
    (herr := fun _ _ => abort_params _ _ _)
    (hsilent := rfl)
    (hinside := rfl)
    (hbefore := rfl)

@[simp] theorem busRelease_params {s : State} {k : State → State}
    (hk : ∀ u, (k u).params = u.params) : (busRelease s k).params = s.params :=
  busRelease_cases (P := fun t => t.params = s.params) s k
    (hgo := fun _ _ => hk _)
    (hinside := rfl)
    (hbefore := rfl)

@[simp] theorem delay_params {d : DelayKind} {s : State} {k : State → State}
    (hk : ∀ u, (k u).params = u.params) : (delay d s k).params = s.params :=
  delay_cases (P := fun t => t.params = s.params) d s k
    (hgo := fun _ => hk _)
    (hinside := rfl)
    (hbefore := rfl)

@[simp] theorem needUp_params {s : State} {k : State → State}
    (hk : ∀ u, (k u).params = u.params) : (needUp s k).params = s.params := by
  by_cases h : s.life = .up
  · rw [needUp_of_up h, hk, startOp_params]
  · rw [needUp_of_not_up h, respond_params, startOp_params]

@[simp] theorem needDown_params {s : State} {k : State → State}
    (hk : ∀ u, (k u).params = u.params) : (needDown s k).params = s.params := by
  by_cases h : s.life = .down
  · rw [needDown_of_down h, hk, startOp_params]
  · rw [needDown_of_not_down h, respond_params, startOp_params]

/-! ## The acquisition sequence -/

@[simp] theorem biasStep_params {c : Configuration} {s : State} {k : State → State}
    (hk : ∀ u, (k u).params = u.params) : (biasStep c s k).params = s.params := by
  unfold biasStep
  split
  · exact cfgWr_params fun _ => delay_params hk
  · exact hk _

@[simp] theorem conversionStep_params {c : Configuration} {s : State} {k : State → State}
    (hk : ∀ u, (k u).params = u.params) : (conversionStep c s k).params = s.params := by
  unfold conversionStep
  split
  · exact cfgRd_params fun _ _ => cfgWr_params fun _ => delay_params hk
  · exact hk _

@[simp] theorem readBackStep_params {s : State} {k : Ratio → State → State}
    (hk : ∀ ratio u, (k ratio u).params = u.params) : (readBackStep s k).params = s.params :=
  rtdRd_params fun w => hk (ratioOf w)

@[simp] theorem restoreStep_params {c : Configuration} {s : State} {k : State → State}
    (hk : ∀ u, (k u).params = u.params) : (restoreStep c s k).params = s.params :=
  cfgWr_params fun u => hk (u.enter .idle)

@[simp] theorem acquireRatio_params {s : State} {k : Ratio → State → State}
    (hk : ∀ ratio u, (k ratio u).params = u.params) : (acquireRatio s k).params = s.params :=
  biasStep_params fun _ => conversionStep_params fun _ => readBackStep_params fun ratio _ =>
    restoreStep_params (hk ratio)

/-! ## The instructions and the step -/

@[simp] theorem tornDown_params (s : State) : (tornDown s).params = s.params := respond_params _ _ _

/-- Every instruction has a next state, and it is of the same configuration. -/
theorem exec_params (i : Instr) (s : State) : ∃ t, exec i s = .next t ∧ t.params = s.params := by
  cases i with
  | encode | decode | solve | resist | cvd | poly | reservedE | reservedF =>
    exact ⟨_, rfl, respond_params s.startOp _ _⟩
  | cfgByteEncode | cfgByteDecode | raw16 => exact ⟨_, rfl, rfl⟩
  | beginOp => exact ⟨_, rfl, needDown_params fun _ => busAcquire_params fun _ => cfgWr_params fun _ =>
      respond_params _ _ _⟩
  | endOp =>
    refine ⟨_, rfl, ?_⟩
    split
    · exact busRelease_params tornDown_params
    · exact tornDown_params _
  | setConfig => exact ⟨_, rfl, needUp_params fun _ => cfgWr_params fun _ => respond_params _ _ _⟩
  | getConfig => exact ⟨_, rfl, needUp_params fun _ => cfgRd_params fun _ _ => respond_params _ _ _⟩
  | clearFault => exact ⟨_, rfl, needUp_params fun _ => cfgRd_params fun _ _ => cfgWr_params fun _ =>
      respond_params _ _ _⟩
  | readFault => exact ⟨_, rfl, needUp_params fun _ => faultRd_params fun _ _ => respond_params _ _ _⟩
  | getRaw | getTemp =>
    exact ⟨_, rfl, needUp_params fun _ => acquireRatio_params fun _ _ => respond_params _ _ _⟩
  | cfgWr => exact ⟨_, rfl, cfgWr_params fun _ => rfl⟩
  | cfgRd => exact ⟨_, rfl, cfgRd_params fun _ _ => rfl⟩
  | rtdRd => exact ⟨_, rfl, rtdRd_params fun _ _ => rfl⟩
  | faultRd => exact ⟨_, rfl, faultRd_params fun _ _ => rfl⟩

/-- Where a rejected decoding has a next state, it is that of a refusal with BAD_COMMAND (R63). -/
theorem reject_eq_next {e : DecodeError} {s t : State} (h : reject e s = .next t) :
    t = s.startOp.respond .badCommand .none := by
  cases e with
  | reservedBits | unusedImm => exact (Host.Outcome.next.inj h).symm
  | foreignAddress | writeOnlyBits => cases h

/-- What is taken off the command port changes no configuration. -/
theorem fetch_params {s t : State} {p : Presented} (h : s.fetch = some (p, t)) : t.params = s.params := by
  obtain ⟨-, _, _, -, -, rfl⟩ := fetch_eq_some h
  rfl

/-- Settles O56, by the five things a step can do. -/
theorem configurationNeverChanges : Obligations.ConfigurationNeverChanges := by
  intro s t h
  rcases step_cases s with ⟨-, hstep⟩ | ⟨-, -, hstep⟩ | ⟨-, -, -, hstep⟩ | ⟨p, u, i, -, -, hfetch, -, hstep⟩ |
      ⟨p, u, e, -, -, hfetch, -, hstep⟩ <;>
    rw [hstep] at h
  · cases h; exact releaseReset_params s
  · cases h; exact cutShort_params s
  · cases h; rfl
  · obtain ⟨v, hexec, hv⟩ := exec_params i u
    cases hexec.symm.trans h
    exact hv.trans (fetch_params hfetch)
  · rw [reject_eq_next h, respond_params, startOp_params, fetch_params hfetch]

/-! ## SOLVE at a configuration -/

/-- An operation that answers at once, and before which no reset comes, leaves an empty history and makes no
draw. -/
theorem startOp_respond_undisturbed {s : State} (st : Status) (r : Result) (h : s.undisturbed 0) :
    s.startOp.respond st r = s.ended st r [] [] 0 :=
  respond_undisturbed (s := s.startOp) st r h

/-- A pattern of `FW` bits is read back from its port as it is. -/
@[simp] theorem value_toNat (n : NumSel) (x : BitVec n.fw) : n.value x.toNat = x := by
  simp [NumSel.value]

/-- On patterns of `FW` bits the block's solver is the solver over its own numerics and coefficients. -/
theorem solveOn_toNat (p : Params) (ratio : Ratio) (rref rnom : BitVec p.num.fw) :
    solveOn p ratio rref.toNat rnom.toNat = (solve p.num.num p.polyC ratio rref rnom).toNat := by
  rw [solveOn, value_toNat, value_toNat]

theorem solveOn_binary32 {p : Params} (hnum : p.num = .binary32) (ratio : Ratio) (rref rnom : BitVec 32) :
    solveOn p ratio rref.toNat rnom.toNat = (solve binary32 p.polyC ratio rref rnom).toNat := by
  obtain ⟨_, polyC, ew⟩ := p
  subst hnum
  exact solveOn_toNat ⟨.binary32, polyC, ew⟩ ratio rref rnom

theorem solveOn_binary64 {p : Params} (hnum : p.num = .binary64) (ratio : Ratio) (rref rnom : BitVec 64) :
    solveOn p ratio rref.toNat rnom.toNat = (solve binary64 p.polyC ratio rref rnom).toNat := by
  obtain ⟨_, polyC, ew⟩ := p
  subst hnum
  exact solveOn_toNat ⟨.binary64, polyC, ew⟩ ratio rref rnom

/-- SOLVE answers with the block's solver and leaves everything else as it was. -/
theorem exec_solve_undisturbed {s : State} (ratio : Ratio) (rref rnom : Flt) (h : s.undisturbed 0) :
    exec (.solve ratio rref rnom) s =
      .next (s.ended .ok (.float (solveOn s.params ratio rref rnom)) [] [] 0) :=
  congrArg Host.Outcome.next (startOp_respond_undisturbed .ok _ h)

/-- Settles O57: SOLVE answers with the block's solver, which is the solver over the instance that the block's
`NUM` names. -/
theorem solveRunsOnTheConfiguredNumerics : Obligations.SolveRunsOnTheConfiguredNumerics := by
  rintro s _ ratio h rfl
  exact ⟨fun rref rnom hnum => by rw [exec_solve_undisturbed _ _ _ h, solveOn_binary32 hnum],
    fun rref rnom hnum => by rw [exec_solve_undisturbed _ _ _ h, solveOn_binary64 hnum]⟩

end Sys2Proof.Machine

/-! PROOF. Family 10_state: the timer (O21, O22), the reset state (O39), what an instruction writes and what it
leaves (O41, O18, O42, and the writing half of O43 and O44), and what it does not read (O40, and the reading
half of O43 and O44). -/

namespace Sys2Proof.Machine

/-! ## The timer -/

/-- A tick takes one off, and stops at zero. -/
theorem timerTick_toNat (t : Timer) : (timerTick t).toNat = t.toNat - 1 := by
  unfold timerTick
  split
  · next h => subst h; rfl
  · next h =>
    have hpos : 1 ≤ t.toNat := Nat.one_le_iff_ne_zero.2 fun h0 => h (BitVec.eq_of_toNat_eq h0)
    exact BitVec.toNat_sub_of_le (BitVec.le_def.2 hpos)

/-- `n` ticks take off `n`, and stop at zero. -/
theorem timerRun_toNat (n : Nat) (t : Timer) : (timerRun n t).toNat = t.toNat - n := by
  induction n generalizing t with
  | zero => rfl
  | succ n ih =>
    rw [timerRun, ih, timerTick_toNat]
    omega

/-- The closed form takes off `n`, and stops at zero. -/
theorem timerAfter_toNat (n : Nat) (t : Timer) : (timerAfter n t).toNat = t.toNat - n := by
  unfold timerAfter
  split
  · next h => exact (Nat.sub_eq_zero_of_le h).symm
  · next h =>
    have hn : (BitVec.ofNat TW n).toNat = n := Nat.mod_eq_of_lt ((Nat.lt_of_not_le h).trans t.isLt)
    rw [BitVec.toNat_sub_of_le (BitVec.le_def.2 (hn.trans_le (Nat.le_of_not_le h))), hn]

/-- Settles O22: both timers take off as many cycles as run, down to zero. -/
theorem timerCountsDownCycleByCycle : Obligations.TimerCountsDownCycleByCycle := fun n t =>
  ⟨BitVec.eq_of_toNat_eq ((timerAfter_toNat n t).trans (timerRun_toNat n t).symm), timerRun_toNat n t⟩

/-- The cycles of a delay, at the clock period, reach its bound (R96). -/
theorem bound_le_cycles_mul_tclk (k : DelayKind) : Config.bound k ≤ Config.cycles k * Config.tclk := by
  have hfits : Config.bound k ≤ (2 ^ TW - 1) * Config.tclk :=
    calc Config.bound k ≤ (2 ^ TW - 1) * 16 := by cases k <;> decide
      _ ≤ (2 ^ TW - 1) * Config.tclk := Nat.mul_le_mul_left _ (Nat.le_add_right _ _)
  have hpos : 0 < Config.tclk := Nat.add_pos_left (by decide) _
  have hceil : Config.bound k ≤ (Config.bound k + Config.tclk - 1) / Config.tclk * Config.tclk := by
    have := Nat.lt_div_mul_add hpos (a := Config.bound k + Config.tclk - 1)
    omega
  unfold Config.cycles
  rcases Nat.le_total (2 ^ TW - 1)
    ((Config.bound k + Config.tclk - 1) / Config.tclk + Config.extraCycles k) with h | h
  · rwa [Nat.min_eq_left h]
  · rw [Nat.min_eq_right h]
    exact hceil.trans (Nat.mul_le_mul_right _ (Nat.le_add_right _ _))

/-- A timer loaded with the cycles of a delay holds, `n` cycles later, what is left of them. -/
theorem timerRun_cycles_toNat (k : DelayKind) (n : Nat) :
    (timerRun n (BitVec.ofNat TW (Config.cycles k))).toNat = Config.cycles k - n := by
  rw [timerRun_toNat, BitVec.toNat_ofNat, Nat.mod_eq_of_lt (cycles_lt k)]

/-- Settles O21: the cycles reach the bound, and the timer holds what is left of them. -/
theorem delaysReachTheirBounds : Obligations.DelaysReachTheirBounds := by
  refine ⟨bound_le_cycles_mul_tclk .bias, bound_le_cycles_mul_tclk .conv, fun k => ⟨cycles_lt k, ?_, ?_⟩⟩
  · exact BitVec.eq_of_toNat_eq ((timerRun_cycles_toNat k _).trans (Nat.sub_self _))
  · intro n hn hzero
    have hleft := timerRun_cycles_toNat k n
    rw [hzero] at hleft
    exact Nat.sub_ne_zero_of_lt hn hleft.symm

/-! ## The reset state -/

/-- Settles O39: the reset values are those of `State.resetWith`, and the free values fit their registers. -/
theorem resetStateIsSettled : Obligations.ResetStateIsSettled := by
  refine ⟨rfl, fun p => ⟨rfl, rfl, rfl, rfl, rfl, rfl, fun _ => rfl, fun _ => rfl, ?_, ?_, ?_, ?_, ?_⟩⟩
  · exact fun h => absurd h Bool.false_ne_true
  · exact fun h => absurd rfl h
  · exact fun _ => rfl
  · exact BitVec.isLt _
  · exact BitVec.isLt _

/-! ## What every operation keeps while it runs

`I` holds of an operation in progress and `Q` of what it leaves. A pair of them that the shared operations
respect is followed through the instructions once, here; each statement below names its own pair. -/

/-- The shared operations take `I` along, and where one of them ends the operation in progress, `Q` holds. -/
structure Carries (I Q : State → Prop) : Prop where
  /-- An event that is answered. -/
  event : ∀ s e, I s → I (s.popDraw.record e)
  /-- A delay that runs to its end. -/
  delay : ∀ s d, I s → I { s.record (.delay d) with tmr := 0 }
  /-- A transaction that fails. -/
  abort : ∀ s e, I s → Q (s.abort .transportError e)
  /-- A transaction that is not answered. -/
  wait : ∀ s r, I s → Q { s with pending := some (.txn r) }
  /-- A reset before an event. -/
  cut : ∀ s, I s → Q s.cutShort
  /-- A reset inside an event. -/
  cutInside : ∀ s e, I s → Q (s.cutShort.record e)

section Rules

variable {I Q : State → Prop} (h : Carries I Q) {s : State} (hs : I s)
include h hs

theorem transact_carries {r : Request} {k : Byte → Byte → State → State}
    (hk : ∀ d0 d1 u, I u → Q (k d0 d1 u)) : Q (transact r s k) :=
  transact_cases r s k
    (hok := fun _ _ _ => hk _ _ _ (h.event s _ hs))
    (herr := fun _ _ => h.abort _ _ (h.event s _ hs))
    (hsilent := fun _ => h.wait _ r (h.event s _ hs))
    (hinside := h.cutInside s _ hs)
    (hbefore := h.cut s hs)

theorem cfgWr_carries {b : Byte} {k : State → State} (hk : ∀ u, I u → Q (k u)) : Q (cfgWr b s k) :=
  transact_carries h hs fun _ _ => hk

theorem cfgRd_carries {k : Byte → State → State} (hk : ∀ b u, I u → Q (k b u)) : Q (cfgRd s k) :=
  transact_carries h hs fun d0 _ => hk d0

theorem rtdRd_carries {k : Raw16 → State → State} (hk : ∀ w u, I u → Q (k w u)) : Q (rtdRd s k) :=
  transact_carries h hs fun d0 d1 => hk (assembleRaw d0 d1)

theorem faultRd_carries {k : Byte → State → State} (hk : ∀ b u, I u → Q (k b u)) : Q (faultRd s k) :=
  transact_carries h hs fun d0 _ => hk d0

theorem delay_carries {d : DelayKind} {k : State → State} (hk : ∀ u, I u → Q (k u)) : Q (delay d s k) :=
  delay_cases d s k
    (hgo := fun _ => hk _ (h.delay s d hs))
    (hinside := h.cutInside s _ hs)
    (hbefore := h.cut s hs)

theorem busRelease_carries {k : State → State} (hk : ∀ u, I u → Q (k u)) : Q (busRelease s k) :=
  busRelease_cases s k
    (hgo := fun _ _ => hk _ (h.event s _ hs))
    (hinside := h.cutInside s _ hs)
    (hbefore := h.cut s hs)

/-- An acquire that fails or is not answered needs more than `Carries`: LIFE moves, and no transaction waits. -/
theorem busAcquire_carries {k : State → State} (hk : ∀ u, I u → Q (k u))
    (hdead : ∀ u e, I u → Q (State.abort { u with life := .dead } .busInitError e))
    (hwait : ∀ u, I u → Q { u with pending := some .acquire }) : Q (busAcquire s k) :=
  busAcquire_cases s k
    (hok := hk _ (h.event s _ hs))
    (herr := fun e _ => hdead _ e (h.event s _ hs))
    (hsilent := hwait _ (h.event s _ hs))
    (hinside := h.cutInside s _ hs)
    (hbefore := h.cut s hs)

end Rules

/-- Everything the admission check for Up can do. -/
theorem needUp_cases {P : State → Prop} (s : State) (k : State → State)
    (hgo : s.life = .up → P (k s.startOp))
    (hrefuse : s.life ≠ .up → P (s.startOp.respond .notReady .none)) : P (needUp s k) := by
  by_cases h : s.life = .up
  · rw [needUp_of_up h]; exact hgo h
  · rw [needUp_of_not_up h]; exact hrefuse h

/-- Everything the admission check for Down can do. -/
theorem needDown_cases {P : State → Prop} (s : State) (k : State → State)
    (hgo : s.life = .down → P (k s.startOp))
    (hrefuse : s.life ≠ .down → P (s.startOp.respond .notReady .none)) : P (needDown s k) := by
  by_cases h : s.life = .down
  · rw [needDown_of_down h]; exact hgo h
  · rw [needDown_of_not_down h]; exact hrefuse h

/-! ### The acquisition

`I w` holds where STATE has walked `w` of the chain of R95. -/

section Acquisition

variable {I : List SeqState → State → Prop} {Q : State → Prop}
  (h : ∀ w, w <+: fullWalk → Carries (I w) Q)
  (henter : ∀ w q u, I w u → I (w ++ [q]) (u.enter q))
  {s : State}
include h henter

theorem biasStep_carries {c : Configuration} {k : State → State} (hs : I [] s)
    (hk : ∀ u, I [.biasWarmup] u → Q (k u)) : Q (biasStep c s k) := by
  have hcarry := h [.biasWarmup] (by decide)
  unfold biasStep
  split
  · exact cfgWr_carries hcarry (henter [] _ s hs) fun u hu => delay_carries hcarry hu hk
  · exact hk _ (henter [] _ s hs)

theorem conversionStep_carries {c : Configuration} {k : State → State} (hs : I [.biasWarmup] s)
    (hk : ∀ u, I [.biasWarmup, .conversionPending] u → Q (k u)) : Q (conversionStep c s k) := by
  have hcarry := h [.biasWarmup, .conversionPending] (by decide)
  unfold conversionStep
  split
  · exact cfgRd_carries hcarry (henter _ _ s hs) fun _ u hu =>
      cfgWr_carries hcarry hu fun v hv => delay_carries hcarry hv hk
  · exact hk _ (henter _ _ s hs)

theorem readBackStep_carries {k : Ratio → State → State} (hs : I [.biasWarmup, .conversionPending] s)
    (hk : ∀ ratio u, I [.biasWarmup, .conversionPending, .readBack] u → Q (k ratio u)) :
    Q (readBackStep s k) :=
  rtdRd_carries (h _ (by decide)) (henter _ _ s hs) fun w => hk (ratioOf w)

theorem restoreStep_carries {c : Configuration} {k : State → State}
    (hs : I [.biasWarmup, .conversionPending, .readBack] s)
    (hk : ∀ u, I fullWalk u → Q (k u)) : Q (restoreStep c s k) :=
  cfgWr_carries (h [.biasWarmup, .conversionPending, .readBack, .restore] (by decide)) (henter _ _ s hs)
    fun u hu => hk _ (henter _ _ u hu)

theorem acquireRatio_carries {k : Ratio → State → State} (hs : I [] s)
    (hk : ∀ ratio u, I fullWalk u → Q (k ratio u)) : Q (acquireRatio s k) :=
  biasStep_carries h henter hs fun _ h1 =>
    conversionStep_carries h henter h1 fun _ h2 =>
      readBackStep_carries h henter h2 fun ratio _ h3 => restoreStep_carries h henter h3 (hk ratio)

end Acquisition

/-! ### The instructions -/

/-- `Q` holds of the state that `i` leaves from `s`. -/
abbrev Leaves (i : Instr) (s : State) (Q : State → Prop) : Prop := ∃ t, exec i s = .next t ∧ Q t

/-- An instruction leaves one state. -/
theorem Leaves.of_exec {i : Instr} {s t : State} {Q : State → Prop} (h : Leaves i s Q)
    (ht : exec i s = .next t) : Q t := by
  obtain ⟨u, hu, hQ⟩ := h
  cases hu.symm.trans ht
  exact hQ

/-- The instructions that neither move LIFE, nor write CFG, nor walk the chain: they answer, deliver or are
refused, after transactions at most. -/
def isPlain : Instr → Bool
  | .beginOp _ _ _ | .endOp | .setConfig _ | .getRaw | .getTemp => false
  | _ => true

/-- The kinds of instructions that the proofs about all of them tell apart. -/
theorem instr_kinds (i : Instr) :
    isPlain i = true ∨ (i = .getRaw ∨ i = .getTemp) ∨ i = .endOp ∨ (∃ c, i = .setConfig c) ∨
      ∃ c x y, i = .beginOp c x y := by
  cases i <;> simp [isPlain]

theorem exec_plain_carries {I Q : State → Prop} (h : Carries I Q)
    (hrespond : ∀ u st r, I u → Q (u.respond st r)) (hdeliver : ∀ u m, I u → Q (u.deliver m))
    {i : Instr} (hi : isPlain i = true) {s : State} (hs : I s.startOp) : Leaves i s Q := by
  have hrefuse : s.life ≠ .up → Q (s.startOp.respond .notReady .none) := fun _ => hrespond _ _ _ hs
  cases i with
  | encode | decode | solve | resist | cvd | poly | reservedE | reservedF =>
    exact ⟨_, rfl, hrespond _ _ _ hs⟩
  | cfgByteEncode | cfgByteDecode | raw16 => exact ⟨_, rfl, hdeliver _ _ hs⟩
  | beginOp | endOp | setConfig | getRaw | getTemp => cases hi
  | getConfig =>
    exact ⟨_, rfl, needUp_cases s _ (fun _ => cfgRd_carries h hs fun _ _ => hrespond _ _ _) hrefuse⟩
  | clearFault =>
    exact ⟨_, rfl, needUp_cases s _ (fun _ => cfgRd_carries h hs fun _ _ hu =>
      cfgWr_carries h hu fun _ => hrespond _ _ _) hrefuse⟩
  | readFault =>
    exact ⟨_, rfl, needUp_cases s _ (fun _ => faultRd_carries h hs fun _ _ => hrespond _ _ _) hrefuse⟩
  | cfgWr => exact ⟨_, rfl, cfgWr_carries h hs fun _ => hdeliver _ _⟩
  | cfgRd => exact ⟨_, rfl, cfgRd_carries h hs fun _ _ => hdeliver _ _⟩
  | rtdRd => exact ⟨_, rfl, rtdRd_carries h hs fun _ _ => hdeliver _ _⟩
  | faultRd => exact ⟨_, rfl, faultRd_carries h hs fun _ _ => hdeliver _ _⟩

theorem exec_acquisition_carries {I : List SeqState → State → Prop} {Q : State → Prop}
    (h : ∀ w, w <+: fullWalk → Carries (I w) Q) (henter : ∀ w q u, I w u → I (w ++ [q]) (u.enter q))
    (hrespond : ∀ u r, I fullWalk u → Q (u.respond .ok r)) {s : State} (hs : s.life = .up → I [] s.startOp)
    (hrefuse : s.life ≠ .up → Q (s.startOp.respond .notReady .none))
    {i : Instr} (hi : i = .getRaw ∨ i = .getTemp) : Leaves i s Q := by
  rcases hi with rfl | rfl <;>
    exact ⟨_, rfl, needUp_cases s _
      (fun hup => acquireRatio_carries h henter (hs hup) fun _ u hu => hrespond u _ hu) hrefuse⟩

/-! ## What an instruction writes: CFG, RREF, RNOM and LIFE -/

/-- The four registers that hold from one operation to the next. -/
def State.held (s : State) : Configuration × Flt × Flt × Life := (s.cfg, s.rref, s.rnom, s.life)

/-- What an instruction run from `s` may leave in the four registers, if no reset ends it (R142, R143, R144). -/
inductive MayLeave (s : State) : Instr → Configuration × Flt × Flt × Life → Prop
  /-- Every instruction but END may leave them as they are. -/
  | kept (i : Instr) (hi : i ≠ .endOp) : MayLeave s i s.held
  /-- END moves LIFE. -/
  | tornDown : MayLeave s .endOp (s.cfg, s.rref, s.rnom, .down)
  /-- SETCONFIG writes CFG. -/
  | configured (c : Configuration) : MayLeave s (.setConfig c) (c, s.rref, s.rnom, s.life)
  /-- BEGIN that acquires writes all four. -/
  | broughtUp (c : Configuration) (x y : Flt) (hdown : s.life = .down) : MayLeave s (.beginOp c x y) (c, x, y, .up)
  /-- BEGIN whose acquire fails makes LIFE Dead. -/
  | dead (c : Configuration) (x y : Flt) (hdown : s.life = .down) :
      MayLeave s (.beginOp c x y) (s.cfg, s.rref, s.rnom, .dead)

/-- A reset has ended the instruction, or the four registers hold what `V` allows. -/
def HoldsOrReset (V : Configuration × Flt × Flt × Life → Prop) (t : State) : Prop :=
  (t.resetPin = true ∧ t.life = .down) ∨ V t.held

/-- With another LIFE the three other registers hold what they held. -/
theorem held_setLife {s u : State} (h : u.held = s.held) (l : Life) :
    State.held { u with life := l } = (s.cfg, s.rref, s.rnom, l) := by
  simp_all [State.held]

section Held

variable {V : Configuration × Flt × Flt × Life → Prop}

theorem holds_respond {s : State} (st : Status) (r : Result) (hV : V s.held) :
    HoldsOrReset V (s.respond st r) := by
  rcases respond_cases s st r with ⟨-, h⟩ | ⟨-, h⟩ <;> rw [h]
  · exact .inr hV
  · exact .inl ⟨rfl, rfl⟩

theorem holds_abort {s : State} (st : Status) (e : ErrVal) (hV : V s.held) :
    HoldsOrReset V (s.abort st e) :=
  holds_respond (s := { s with seq := .idle, tmr := 0 }) st _ hV

/-- The shared operations write none of the four registers. -/
theorem held_carries {v : Configuration × Flt × Flt × Life} (hV : V v) :
    Carries (fun u => u.held = v) (HoldsOrReset V) where
  event _ _ hs := hs
  delay _ _ hs := hs
  abort _ _ hs := holds_abort _ _ (hs ▸ hV)
  wait _ _ hs := .inr (hs ▸ hV)
  cut _ _ := .inl ⟨rfl, rfl⟩
  cutInside _ _ _ := .inl ⟨rfl, rfl⟩

end Held

/-- Every instruction leaves in the four registers what it may, unless a reset ends it. -/
theorem exec_holds (i : Instr) (s : State) : Leaves i s (HoldsOrReset (MayLeave s i)) := by
  rcases instr_kinds i with hi | hi | rfl | ⟨c, rfl⟩ | ⟨c, x, y, rfl⟩
  · have hkept : MayLeave s i s.held := .kept i (by rintro rfl; cases hi)
    exact exec_plain_carries (held_carries hkept)
      (hrespond := fun _ _ _ hu => holds_respond _ _ (hu ▸ hkept))
      (hdeliver := fun _ _ hu => .inr (hu ▸ hkept)) hi rfl
  · have hkept : MayLeave s i s.held := .kept i (by rintro rfl; simp at hi)
    exact exec_acquisition_carries (I := fun _ u => u.held = s.held) (fun _ _ => held_carries hkept)
      (henter := fun _ _ _ hu => hu) (hrespond := fun _ _ hu => holds_respond _ _ (hu ▸ hkept))
      (hs := fun _ => rfl) (hrefuse := fun _ => holds_respond _ _ hkept) hi
  · have htorn : ∀ u : State, u.held = s.held → HoldsOrReset (MayLeave s .endOp) (tornDown u) :=
      fun u hu => holds_respond _ _ (held_setLife hu .down ▸ .tornDown)
    refine ⟨_, rfl, ?_⟩
    split
    · exact busRelease_cases s.startOp tornDown (hgo := fun _ _ => htorn _ rfl)
        (hinside := .inl ⟨rfl, rfl⟩) (hbefore := .inl ⟨rfl, rfl⟩)
    · exact htorn _ rfl
  · have hnew : MayLeave s (.setConfig c) (c, s.rref, s.rnom, s.life) := .configured c
    exact ⟨_, rfl, needUp_cases s _
      (fun _ => cfgWr_carries (held_carries hnew) rfl fun _ hv => holds_respond _ _ (hv ▸ hnew))
      fun _ => holds_respond _ _ (.kept _ nofun)⟩
  · have hkept : MayLeave s (.beginOp c x y) s.held := .kept _ nofun
    refine ⟨_, rfl, needDown_cases s _ (fun hdown => ?_) fun _ => holds_respond _ _ hkept⟩
    have hup : MayLeave s (.beginOp c x y) (c, x, y, .up) := .broughtUp c x y hdown
    exact busAcquire_carries (held_carries hkept) (s := s.startOp) rfl
      (hk := fun u _ => cfgWr_carries (s := u.bringUp c x y) (held_carries hup) rfl
        fun _ hv => holds_respond _ _ (hv ▸ hup))
      (hdead := fun u _ hu => holds_abort _ _ (held_setLife hu .dead ▸ .dead c x y hdown))
      (hwait := fun u hu => .inr (show MayLeave s _ u.held from hu ▸ hkept))

/-- Settles O42: LIFE is one of the four registers that each instruction may leave. -/
theorem lifeMovesByBeginAndEndOnly : Obligations.LifeMovesByBeginAndEndOnly := by
  refine ⟨fun s h => ?_, fun i s t ht => ?_⟩
  · rcases step_cases s with ⟨-, hstep⟩ | ⟨-, -, hstep⟩ | ⟨hpin, hdue, -⟩ | ⟨_, _, _, hpin, hdue, -⟩ |
      ⟨_, _, _, hpin, hdue, -⟩
    · exact ⟨_, hstep, rfl⟩
    · exact ⟨_, hstep, rfl⟩
    all_goals simp [hpin, hdue] at h
  · refine (Leaves.of_exec (exec_holds i s) ht).imp_right fun hV => ?_
    generalize hv : t.held = v at hV
    cases hV with
    | kept i hi => cases i <;> simp_all [State.held]
    | _ => simp_all [State.held]

/-- RREF and RNOM move by BEGIN to its operands, or by a reset. -/
theorem exec_writes_parameters {i : Instr} {s t : State} (ht : exec i s = .next t)
    (hmove : t.rref ≠ s.rref ∨ t.rnom ≠ s.rnom) :
    (∃ c, i = .beginOp c t.rref t.rnom) ∨ (t.resetPin = true ∧ t.life = .down) := by
  refine (Leaves.of_exec (exec_holds i s) ht).symm.imp_left fun hV => ?_
  generalize hv : t.held = v at hV
  cases hV <;> simp_all [State.held]

/-- CFG moves by SETCONFIG or BEGIN to its operand, or by a reset. -/
theorem exec_writes_cfg {i : Instr} {s t : State} (ht : exec i s = .next t) (hmove : t.cfg ≠ s.cfg) :
    i = .setConfig t.cfg ∨ (∃ x y, i = .beginOp t.cfg x y) ∨ (t.resetPin = true ∧ t.life = .down) := by
  rcases Leaves.of_exec (exec_holds i s) ht with hreset | hV
  · exact .inr (.inr hreset)
  · generalize hv : t.held = v at hV
    cases hV <;> simp_all [State.held]

/-! ## STATE and the chain of an acquisition -/

/-- An error leaves STATE at Idle (R155), whether a reset comes before the response or not. -/
@[simp] theorem abort_seq (s : State) (st : Status) (e : ErrVal) : (s.abort st e).seq = .idle := by
  unfold State.abort State.respond
  split <;> rfl

/-- STATE has walked nothing, and is where it was, at `q`, or Idle. -/
def Still (q : SeqState) (t : State) : Prop := t.walk = [] ∧ (t.seq = q ∨ t.seq = .idle)

section Still

variable {q : SeqState} {s : State}

theorem still_respond (st : Status) (r : Result) (hs : Still q s) : Still q (s.respond st r) := by
  rcases respond_cases s st r with ⟨-, h⟩ | ⟨-, h⟩ <;> rw [h]
  · exact hs
  · exact ⟨hs.1, .inr rfl⟩

theorem still_abort (st : Status) (e : ErrVal) (hs : Still q s) : Still q (s.abort st e) :=
  ⟨(abort_walk s st e).trans hs.1, .inr (abort_seq s st e)⟩

theorem still_carries : Carries (Still q) (Still q) where
  event _ _ hs := hs
  delay _ _ hs := hs
  abort _ _ hs := still_abort _ _ hs
  wait _ _ hs := hs
  cut _ hs := ⟨hs.1, .inr rfl⟩
  cutInside _ _ hs := ⟨hs.1, .inr rfl⟩

end Still

/-- No instruction but the acquisitions walks a state, or moves STATE but to Idle. -/
theorem exec_still {i : Instr} (hraw : i ≠ .getRaw) (htemp : i ≠ .getTemp) (s : State) :
    Leaves i s (Still s.seq) := by
  have hs : Still s.seq s.startOp := ⟨rfl, .inl rfl⟩
  have hrefuse : Still s.seq (s.startOp.respond .notReady .none) := still_respond _ _ hs
  rcases instr_kinds i with hi | hi | rfl | ⟨c, rfl⟩ | ⟨c, x, y, rfl⟩
  · exact exec_plain_carries still_carries (fun _ _ _ hu => still_respond _ _ hu) (fun _ _ hu => hu) hi hs
  · simp [hraw, htemp] at hi
  · have htorn : ∀ u, Still s.seq u → Still s.seq (tornDown u) := fun u hu =>
      still_respond (s := { u with life := .down }) _ _ hu
    refine ⟨_, rfl, ?_⟩
    split
    · exact busRelease_carries still_carries hs htorn
    · exact htorn _ hs
  · exact ⟨_, rfl, needUp_cases s _
      (fun _ => cfgWr_carries (s := { s.startOp with cfg := c }) still_carries hs
        fun _ => still_respond _ _) fun _ => hrefuse⟩
  · exact ⟨_, rfl, needDown_cases s _
      (fun _ => busAcquire_carries still_carries hs
        (hk := fun u hu => cfgWr_carries (s := u.bringUp c x y) still_carries hu fun _ => still_respond _ _)
        (hdead := fun u _ hu => still_abort (s := { u with life := .dead }) _ _ hu)
        (hwait := fun _ hu => hu)) fun _ => hrefuse⟩

/-- An acquisition in progress that has walked `w` from the state `q`: STATE is the last state walked, and no
response stands. -/
def Walking (q : SeqState) (w : List SeqState) (u : State) : Prop :=
  u.walk = w ∧ u.seq = w.getLastD q ∧ u.resp = none

/-- What an acquisition that LIFE admits if `l` is Up leaves (R95). -/
def Walked (l : Life) (t : State) : Prop :=
  t.walk <+: fullWalk ∧ ((∃ r, t.resp = some ⟨.ok, r⟩) → t.walk = fullWalk) ∧
    (t.resp.isSome = true → l = .up → t.seq = .idle)

/-- Without a response only the chain matters. -/
theorem walked_of_resp_eq_none {l : Life} {t : State} (hwalk : t.walk <+: fullWalk) (hresp : t.resp = none) :
    Walked l t :=
  ⟨hwalk, by simp [hresp], by simp [hresp]⟩

/-- A response of another status than OK may come anywhere in the chain, if STATE is Idle or the acquisition was
refused. -/
theorem walked_respond {l : Life} {s : State} {st : Status} (r : Result) (hwalk : s.walk <+: fullWalk)
    (hok : st = .ok → s.walk = fullWalk) (hseq : l = .up → s.seq = .idle) : Walked l (s.respond st r) := by
  rcases respond_cases s st r with ⟨-, h⟩ | ⟨-, h⟩ <;> rw [h]
  · refine ⟨hwalk, fun ⟨_, hr⟩ => hok ?_, fun _ => hseq⟩
    injection hr with hr
    injection hr
  · exact walked_of_resp_eq_none hwalk rfl

theorem walking_carries {q : SeqState} {l : Life} {w : List SeqState} (hw : w <+: fullWalk) :
    Carries (Walking q w) (Walked l) where
  event _ _ hs := hs
  delay _ _ hs := hs
  abort s _ hs := walked_respond (s := { s with seq := .idle, tmr := 0 }) _ (hs.1 ▸ hw) nofun fun _ => rfl
  wait _ _ hs := walked_of_resp_eq_none (hs.1 ▸ hw) hs.2.2
  cut _ hs := walked_of_resp_eq_none (hs.1 ▸ hw) rfl
  cutInside _ _ hs := walked_of_resp_eq_none (hs.1 ▸ hw) rfl

theorem walking_enter {p : SeqState} (w : List SeqState) (q : SeqState) (u : State) (hu : Walking p w u) :
    Walking p (w ++ [q]) (u.enter q) :=
  ⟨by rw [enter_walk, hu.1], by simp, hu.2.2⟩

/-- An acquisition walks a part of the chain from its beginning, and all of it before it answers OK. -/
theorem exec_walked {i : Instr} (hi : i = .getRaw ∨ i = .getTemp) (s : State) :
    Leaves i s (Walked s.life) :=
  exec_acquisition_carries (I := Walking s.seq) (fun _ => walking_carries) walking_enter
    (hrespond := fun _ r hu => walked_respond r (by simp [hu.1]) (fun _ => hu.1) fun _ => hu.2.1)
    (hs := fun _ => ⟨rfl, rfl, rfl⟩)
    (hrefuse := fun hup => walked_respond _ (by simp) nofun fun h => absurd h hup) hi

/-- Settles O18: an acquisition leaves a `Walked` state, every other instruction a `Still` one. -/
theorem stateWalksTheChain : Obligations.StateWalksTheChain := fun _ s _ ht =>
  ⟨fun hi => (exec_walked hi s).of_exec ht, fun hraw htemp => (exec_still hraw htemp s).of_exec ht⟩

/-! ## The state between steps -/

/-- An operation runs in a block of LIFE `l` whose STATE is `q`: no delay runs between its events, nothing is
outstanding, no response stands, no reset is asserted, and the parameters hold patterns of FW bits. -/
def Running (l : Life) (q : SeqState) (s : State) : Prop :=
  s.life = l ∧ s.seq = q ∧ (q ≠ .idle → l = .up) ∧ s.tmr = 0 ∧ s.pending = none ∧ s.resp = none ∧
    s.resetPin = false ∧ s.rref < 2 ^ s.params.num.fw ∧ s.rnom < 2 ^ s.params.num.fw

/-- The block in reset is settled, if the free values that the parameters took fit their registers. -/
theorem settled_of_atReset {s : State} (h : s.AtReset)
    (hwidth : s.rref < 2 ^ s.params.num.fw ∧ s.rnom < 2 ^ s.params.num.fw) : s.Settled := by
  have ⟨hlife, hseq, htmr, _, hresp⟩ := h
  exact ⟨htmr, fun _ => hseq, fun _ => hresp, fun _ => h, fun hne => absurd hseq hne, fun _ => hlife, hwidth⟩

theorem settled_cutShort (s : State) : s.cutShort.Settled :=
  settled_of_atReset (cutShort_atReset s) (cutShort_width s)

theorem settled_cutShort_record (s : State) (e : Event) : (s.cutShort.record e).Settled :=
  settled_cutShort s

section Running

variable {l : Life} {q : SeqState} {s : State}

/-- A response to an operation that STATE is done with leaves a settled state. -/
theorem settled_respond (st : Status) (r : Result) (hs : Running l .idle s) : (s.respond st r).Settled := by
  rcases respond_cases s st r with ⟨-, h⟩ | ⟨-, h⟩ <;> rw [h]
  · obtain ⟨hlife, hseq, -, htmr, hpending, -, hpin, hrref, hrnom⟩ := hs
    simp_all [State.Settled]
  · exact settled_cutShort s

theorem settled_deliver (m : MicroOut) (hs : Running l .idle s) : (s.deliver m).Settled := by
  obtain ⟨hlife, hseq, -, htmr, hpending, -, hpin, hrref, hrnom⟩ := hs
  simp_all [State.Settled]

theorem settled_abort (st : Status) (e : ErrVal) (hs : Running l q s) : (s.abort st e).Settled := by
  obtain ⟨hlife, -, -, -, hpending, hresp, hpin, hrref, hrnom⟩ := hs
  exact settled_respond (l := l) _ _ ⟨hlife, rfl, nofun, rfl, hpending, hresp, hpin, hrref, hrnom⟩

/-- A request that is not answered leaves a settled state; an acquire is outstanding while LIFE is Down only. -/
theorem settled_wait (p : Pending) (hs : Running l q s) (hacquire : p = .acquire → l = .down) :
    State.Settled { s with pending := some p } := by
  obtain ⟨hlife, hseq, hup, htmr, -, hresp, hpin, hrref, hrnom⟩ := hs
  simp_all [State.Settled]

/-- LIFE may move while STATE is Idle. -/
theorem running_setLife (l' : Life) (hs : Running l .idle s) : Running l' .idle { s with life := l' } := by
  obtain ⟨-, hseq, -, hrest⟩ := hs
  exact ⟨rfl, hseq, nofun, hrest⟩

theorem running_bringUp {c : Configuration} {x y : Flt} (hs : Running l .idle s)
    (hx : x < 2 ^ s.params.num.fw) (hy : y < 2 ^ s.params.num.fw) : Running .up .idle (s.bringUp c x y) := by
  obtain ⟨-, hseq, -, htmr, hpending, hresp, hpin, -, -⟩ := hs
  exact ⟨rfl, hseq, nofun, htmr, hpending, hresp, hpin, hx, hy⟩

theorem running_carries : Carries (Running l q) State.Settled where
  event _ _ hs := hs
  delay _ _ hs := by
    obtain ⟨hlife, hseq, hup, -, hrest⟩ := hs
    exact ⟨hlife, hseq, hup, rfl, hrest⟩
  abort _ _ hs := settled_abort _ _ hs
  wait _ r hs := settled_wait (.txn r) hs nofun
  cut s _ := settled_cutShort s
  cutInside s e _ := settled_cutShort_record s e

end Running

/-- STATE moves while LIFE is Up. -/
theorem running_enter (w : List SeqState) (q : SeqState) (u : State) (hu : Running .up (w.getLastD .idle) u) :
    Running .up ((w ++ [q]).getLastD .idle) (u.enter q) := by
  obtain ⟨hlife, -, -, hrest⟩ := hu
  exact ⟨hlife, by simp, fun _ => rfl, hrest⟩

/-- Every instruction leaves a settled state, if the operands of a BEGIN are patterns of FW bits. -/
theorem exec_settled {i : Instr} {s : State} (hs : Running s.life .idle s.startOp)
    (hwidth : ∀ c x y, i = .beginOp c x y → x < 2 ^ s.params.num.fw ∧ y < 2 ^ s.params.num.fw) :
    Leaves i s State.Settled := by
  have hrefuse : State.Settled (s.startOp.respond .notReady .none) := settled_respond _ _ hs
  rcases instr_kinds i with hi | hi | rfl | ⟨c, rfl⟩ | ⟨c, x, y, rfl⟩
  · exact exec_plain_carries running_carries (fun _ _ _ hu => settled_respond _ _ hu)
      (fun _ _ hu => settled_deliver _ hu) hi hs
  · exact exec_acquisition_carries (I := fun w => Running .up (w.getLastD .idle))
      (fun _ _ => running_carries) running_enter (hrespond := fun _ _ hu => settled_respond _ _ hu)
      (hs := fun hup => hup ▸ hs) (fun _ => hrefuse) hi
  · have htorn : ∀ u, Running s.life .idle u → State.Settled (tornDown u) := fun u hu =>
      settled_respond _ _ (running_setLife .down hu)
    refine ⟨_, rfl, ?_⟩
    split
    · exact busRelease_carries running_carries hs htorn
    · exact htorn _ hs
  · exact ⟨_, rfl, needUp_cases s _
      (fun _ => cfgWr_carries (s := { s.startOp with cfg := c }) running_carries hs
        fun _ => settled_respond _ _) fun _ => hrefuse⟩
  · obtain ⟨hx, hy⟩ := hwidth c x y rfl
    refine ⟨_, rfl, needDown_cases s _ (fun hdown => ?_) fun _ => hrefuse⟩
    exact busAcquire_cases s.startOp _
      (hok := cfgWr_carries running_carries
        (running_bringUp (running_carries.event _ (.acquire (.ok [])) hs) hx hy)
        fun _ => settled_respond _ _)
      (herr := fun e _ => settled_abort _ _
        (running_setLife .dead (running_carries.event _ (.acquire (.err e)) hs)))
      (hsilent := settled_wait .acquire (running_carries.event _ (.acquire .unanswered) hs) fun _ => hdown)
      (hinside := settled_cutShort_record _ _)
      (hbefore := settled_cutShort _)

/-! ### What the ports let in -/

theorem withImm_eq_ok {imm : BitVec 16} {used : Nat} {i j : Instr} (h : withImm imm used i = .ok j) :
    i = j := by
  unfold withImm at h
  split at h
  · exact Except.ok.inj h
  · cases h

/-- The operands of a BEGIN are those that stand on the ports. -/
theorem decodeCmd_beginOp {cw : CmdWord} {fa fb x y : Flt} {c : Configuration}
    (h : decodeCmd cw fa fb = .ok (.beginOp c x y)) : x = fa ∧ y = fb := by
  unfold decodeCmd at h
  dsimp only at h
  split at h
  · cases h
  · cases h
  · split at h
    · cases h
    · split at h <;> cases withImm_eq_ok h
      exact ⟨rfl, rfl⟩

/-- A BEGIN that the block accepts has operands of FW bits (R57, R61). -/
theorem decode_onPorts_beginOp {p : Presented} {w : Nat} {c : Configuration} {x y : Flt}
    (h : decode (p.onPorts w) = .ok (.beginOp c x y)) : x < 2 ^ w ∧ y < 2 ^ w := by
  cases p with
  | cmd cw fa fb =>
    obtain ⟨rfl, rfl⟩ := decodeCmd_beginOp h
    exact ⟨Nat.mod_lt _ (Nat.two_pow_pos w), Nat.mod_lt _ (Nat.two_pow_pos w)⟩
  | addrb ab payload =>
    simp only [decode, Presented.onPorts, decodeAddrByte] at h
    split_ifs at h <;> cases h
  | cfgbEncode b =>
    simp only [decode, Presented.onPorts] at h
    split_ifs at h
    cases h
  | cfgbDecode | raw16 => cases h

/-- What the port accepts in a settled block is run by a block with nothing in progress. -/
theorem running_of_fetch {s t : State} {p : Presented} (hs : s.Settled) (hpin : s.resetPin = false)
    (h : s.fetch = some (p, t)) : Running t.life .idle t.startOp := by
  obtain ⟨hready, _, q, -, -, rfl⟩ := fetch_eq_some h
  obtain ⟨hseq, hpending⟩ := (cmdReady_iff s).1 hready
  obtain ⟨htmr, -, -, -, -, -, hrref, hrnom⟩ := hs
  exact ⟨rfl, hseq, nofun, htmr, hpending, rfl, hpin, hrref, hrnom⟩

/-- Settles O41, by the five things a step can do. -/
theorem stepKeepsTheStateSettled : Obligations.StepKeepsTheStateSettled := by
  intro s t hs h
  rcases step_cases s with ⟨-, hstep⟩ | ⟨-, -, hstep⟩ | ⟨-, -, -, hstep⟩ |
      ⟨p, u, i, hpin, -, hfetch, hdecode, hstep⟩ | ⟨p, u, e, hpin, -, hfetch, -, hstep⟩ <;>
    rw [hstep] at h
  · cases h
    exact settled_of_atReset (releaseReset_atReset s) ⟨BitVec.isLt _, BitVec.isLt _⟩
  · cases h
    exact settled_cutShort s
  · cases h
    exact hs
  · refine (exec_settled (running_of_fetch hs hpin hfetch) fun c x y hi => ?_).of_exec h
    obtain ⟨-, _, _, -, rfl, rfl⟩ := fetch_eq_some hfetch
    exact decode_onPorts_beginOp (hi ▸ hdecode)
  · rw [reject_eq_next h]
    exact settled_respond _ _ (running_of_fetch hs hpin hfetch)

/-! ## What an instruction does not read: CFG, RREF and RNOM

Two runs of one instruction, from states that differ in these registers only, go side by side: the same inputs
are drawn, and what is not read stays the only difference. -/

/-- `t` is `s` but for CFG, RREF and RNOM. Where LIFE is one of `fc`, CFG agrees too, and where it is one of `ff`,
RREF and RNOM do. -/
def Alike (fc ff : Life → Prop) (s t : State) : Prop :=
  ∃ c x y, t = { s with cfg := c, rref := x, rnom := y } ∧
    (fc s.life → c = s.cfg) ∧ (ff s.life → x = s.rref ∧ y = s.rnom)

section Alike

variable {fc ff : Life → Prop} {s t : State}

theorem Alike.refl (s : State) : Alike fc ff s s :=
  ⟨s.cfg, s.rref, s.rnom, rfl, fun _ => rfl, fun _ => ⟨rfl, rfl⟩⟩

/-- The fields that the relation says nothing of are equal. -/
theorem Alike.fields (h : Alike fc ff s t) :
    t.resp = s.resp ∧ t.events = s.events ∧ t.micro = s.micro ∧ t.life = s.life ∧ t.seq = s.seq ∧
      t.tmr = s.tmr ∧ t.pending = s.pending := by
  obtain ⟨_, _, _, rfl, -⟩ := h
  exact ⟨rfl, rfl, rfl, rfl, rfl, rfl, rfl⟩

theorem Alike.params (h : Alike fc ff s t) : t.params = s.params := by
  obtain ⟨_, _, _, rfl, -⟩ := h
  rfl

theorem Alike.life (h : Alike fc ff s t) : t.life = s.life := by
  obtain ⟨-, -, -, hlife, -⟩ := h.fields
  exact hlife

theorem Alike.cfg (h : Alike fc ff s t) (hc : fc s.life) : t.cfg = s.cfg := by
  obtain ⟨_, _, _, rfl, hcfg, -⟩ := h
  exact hcfg hc

theorem Alike.parameters (h : Alike fc ff s t) (hf : ff s.life) : t.rref = s.rref ∧ t.rnom = s.rnom := by
  obtain ⟨_, _, _, rfl, -, hpar⟩ := h
  exact hpar hf

theorem Alike.draw (h : Alike fc ff s t) : t.draw = s.draw := by
  obtain ⟨_, _, _, rfl, -⟩ := h
  rfl

/-! ### The updates of the state -/

theorem Alike.startOp (h : Alike fc ff s t) : Alike fc ff s.startOp t.startOp := by
  obtain ⟨c, x, y, rfl, h⟩ := h
  exact ⟨c, x, y, rfl, h⟩

theorem Alike.popDraw (h : Alike fc ff s t) : Alike fc ff s.popDraw t.popDraw := by
  obtain ⟨c, x, y, rfl, h⟩ := h
  exact ⟨c, x, y, rfl, h⟩

theorem Alike.record (h : Alike fc ff s t) (e : Event) : Alike fc ff (s.record e) (t.record e) := by
  obtain ⟨c, x, y, rfl, h⟩ := h
  exact ⟨c, x, y, rfl, h⟩

theorem Alike.enter (h : Alike fc ff s t) (q : SeqState) : Alike fc ff (s.enter q) (t.enter q) := by
  obtain ⟨c, x, y, rfl, h⟩ := h
  exact ⟨c, x, y, rfl, h⟩

theorem Alike.deliver (h : Alike fc ff s t) (m : MicroOut) : Alike fc ff (s.deliver m) (t.deliver m) := by
  obtain ⟨c, x, y, rfl, h⟩ := h
  exact ⟨c, x, y, rfl, h⟩

theorem Alike.wait (h : Alike fc ff s t) (p : Pending) :
    Alike fc ff { s with pending := some p } { t with pending := some p } := by
  obtain ⟨c, x, y, rfl, h⟩ := h
  exact ⟨c, x, y, rfl, h⟩

theorem Alike.stopTimer (h : Alike fc ff s t) : Alike fc ff { s with tmr := 0 } { t with tmr := 0 } := by
  obtain ⟨c, x, y, rfl, h⟩ := h
  exact ⟨c, x, y, rfl, h⟩

theorem Alike.stop (h : Alike fc ff s t) :
    Alike fc ff { s with seq := .idle, tmr := 0 } { t with seq := .idle, tmr := 0 } := by
  obtain ⟨c, x, y, rfl, h⟩ := h
  exact ⟨c, x, y, rfl, h⟩

theorem Alike.writeCfg (h : Alike fc ff s t) (c : Configuration) :
    Alike fc ff { s with cfg := c } { t with cfg := c } := by
  obtain ⟨_, x, y, rfl, -, hpar⟩ := h
  exact ⟨c, x, y, rfl, fun _ => rfl, hpar⟩

/-- LIFE moves to a value at which no more has to agree. -/
theorem Alike.setLife (h : Alike fc ff s t) {l : Life} (hc : fc l → fc s.life) (hf : ff l → ff s.life) :
    Alike fc ff { s with life := l } { t with life := l } := by
  obtain ⟨c, x, y, rfl, hcfg, hpar⟩ := h
  exact ⟨c, x, y, rfl, fun hl => hcfg (hc hl), fun hl => hpar (hf hl)⟩

/-- BEGIN writes all that was unknown; its operands have to agree where the parameters do. -/
theorem Alike.bringUp (h : Alike fc ff s t) (c : Configuration) {x y x' y' : Flt}
    (hpar : ff .up → x' = x ∧ y' = y) : Alike fc ff (s.bringUp c x y) (t.bringUp c x' y') := by
  obtain ⟨_, _, _, rfl, -⟩ := h
  exact ⟨c, x', y', rfl, fun _ => rfl, hpar⟩

/-- A reset gives all three registers fresh values, which are equal. -/
theorem Alike.cutShort (h : Alike fc ff s t) : Alike fc ff s.cutShort t.cutShort := by
  obtain ⟨_, _, _, rfl, -⟩ := h
  exact Alike.refl _

theorem Alike.respond (h : Alike fc ff s t) (st : Status) (r : Result) :
    Alike fc ff (s.respond st r) (t.respond st r) := by
  cases hends : s.draw.endsOperation
  · rw [respond_undisturbed st r hends, respond_undisturbed st r (h.draw ▸ hends)]
    obtain ⟨c, x, y, rfl, h⟩ := h
    exact ⟨c, x, y, rfl, h⟩
  · rw [respond_reset st r hends, respond_reset st r (h.draw ▸ hends)]
    exact h.cutShort

theorem Alike.abort (h : Alike fc ff s t) (st : Status) (e : ErrVal) :
    Alike fc ff (s.abort st e) (t.abort st e) :=
  h.stop.respond st _

/-! ### The shared operations -/

theorem transact_alike (h : Alike fc ff s t) {r : Request} {k k' : Byte → Byte → State → State}
    (hk : ∀ d0 d1 u v, Alike fc ff u v → Alike fc ff (k d0 d1 u) (k' d0 d1 v)) :
    Alike fc ff (transact r s k) (transact r t k') := by
  unfold transact
  rw [h.draw]
  split
  · exact hk _ _ _ _ (h.popDraw.record _)
  · exact (h.popDraw.record _).abort _ _
  · exact (h.popDraw.record _).wait _
  · exact h.cutShort.record _
  · exact h.cutShort
  · exact h.cutShort

theorem cfgWr_alike (h : Alike fc ff s t) {b : Byte} {k k' : State → State}
    (hk : ∀ u v, Alike fc ff u v → Alike fc ff (k u) (k' v)) :
    Alike fc ff (cfgWr b s k) (cfgWr b t k') :=
  transact_alike h fun _ _ => hk

theorem cfgRd_alike (h : Alike fc ff s t) {k k' : Byte → State → State}
    (hk : ∀ b u v, Alike fc ff u v → Alike fc ff (k b u) (k' b v)) :
    Alike fc ff (cfgRd s k) (cfgRd t k') :=
  transact_alike h fun d0 _ => hk d0

theorem rtdRd_alike (h : Alike fc ff s t) {k k' : Raw16 → State → State}
    (hk : ∀ w u v, Alike fc ff u v → Alike fc ff (k w u) (k' w v)) :
    Alike fc ff (rtdRd s k) (rtdRd t k') :=
  transact_alike h fun d0 d1 => hk (assembleRaw d0 d1)

theorem faultRd_alike (h : Alike fc ff s t) {k k' : Byte → State → State}
    (hk : ∀ b u v, Alike fc ff u v → Alike fc ff (k b u) (k' b v)) :
    Alike fc ff (faultRd s k) (faultRd t k') :=
  transact_alike h fun d0 _ => hk d0

theorem delay_alike (h : Alike fc ff s t) {d : DelayKind} {k k' : State → State}
    (hk : ∀ u v, Alike fc ff u v → Alike fc ff (k u) (k' v)) :
    Alike fc ff (delay d s k) (delay d t k') := by
  unfold delay
  rw [h.draw, delayTimer_eq_zero]
  split
  · exact hk _ _ (h.record _).stopTimer
  · exact hk _ _ (h.record _).stopTimer
  · exact h.cutShort.record _
  · exact h.cutShort
  · exact h.cutShort

theorem busRelease_alike (h : Alike fc ff s t) {k k' : State → State}
    (hk : ∀ u v, Alike fc ff u v → Alike fc ff (k u) (k' v)) :
    Alike fc ff (busRelease s k) (busRelease t k') := by
  unfold busRelease
  rw [h.draw]
  split
  · exact hk _ _ (h.popDraw.record _)
  · exact hk _ _ (h.popDraw.record _)
  · exact hk _ _ (h.popDraw.record _)
  · exact h.cutShort.record _
  · exact h.cutShort
  · exact h.cutShort

theorem needUp_alike (h : Alike fc ff s t) {k k' : State → State}
    (hk : s.life = .up → Alike fc ff (k s.startOp) (k' t.startOp)) :
    Alike fc ff (needUp s k) (needUp t k') := by
  unfold needUp
  rw [h.life]
  split
  · next hup => exact hk hup
  · exact h.startOp.respond _ _

theorem needDown_alike (h : Alike fc ff s t) {k k' : State → State}
    (hk : Alike fc ff (k s.startOp) (k' t.startOp)) : Alike fc ff (needDown s k) (needDown t k') := by
  unfold needDown
  rw [h.life]
  split
  · exact hk
  · exact h.startOp.respond _ _

/-! ### The acquisition, over one Configuration -/

theorem biasStep_alike (h : Alike fc ff s t) {c : Configuration} {k k' : State → State}
    (hk : ∀ u v, Alike fc ff u v → Alike fc ff (k u) (k' v)) :
    Alike fc ff (biasStep c s k) (biasStep c t k') := by
  unfold biasStep
  split
  · exact cfgWr_alike (h.enter _) fun _ _ h => delay_alike h hk
  · exact hk _ _ (h.enter _)

theorem conversionStep_alike (h : Alike fc ff s t) {c : Configuration} {k k' : State → State}
    (hk : ∀ u v, Alike fc ff u v → Alike fc ff (k u) (k' v)) :
    Alike fc ff (conversionStep c s k) (conversionStep c t k') := by
  unfold conversionStep
  split
  · exact cfgRd_alike (h.enter _) fun _ _ _ h => cfgWr_alike h fun _ _ h => delay_alike h hk
  · exact hk _ _ (h.enter _)

theorem acquireRatio_alike (h : Alike fc ff s t) (hcfg : t.cfg = s.cfg) {k k' : Ratio → State → State}
    (hk : ∀ ratio u v, Alike fc ff u v → Alike fc ff (k ratio u) (k' ratio v)) :
    Alike fc ff (acquireRatio s k) (acquireRatio t k') := by
  unfold acquireRatio
  rw [hcfg]
  exact biasStep_alike h fun _ _ h => conversionStep_alike h fun _ _ h =>
    rtdRd_alike (h.enter _) fun w _ _ h => cfgWr_alike (h.enter _) fun _ _ h =>
      hk (ratioOf w) _ _ (h.enter _)

end Alike

/-! ### The instructions -/

section Instructions

variable {fc ff : Life → Prop}
  -- what agrees at some LIFE but Up agrees at every LIFE
  (hc : ∀ l l', l ≠ .up → fc l → fc l') (hf : ∀ l l', l ≠ .up → ff l → ff l')
  {s t : State}
include hc hf

theorem execBegin_alike (h : Alike fc ff s t) (c : Configuration) {x y x' y' : Flt}
    (hpar : ff .up → x' = x ∧ y' = y) :
    ∃ u v, exec (.beginOp c x y) s = .next u ∧ exec (.beginOp c x' y') t = .next v ∧ Alike fc ff u v := by
  refine ⟨_, _, rfl, rfl, needDown_alike h ?_⟩
  have h := h.startOp
  unfold busAcquire
  rw [h.draw]
  split
  · exact cfgWr_alike ((h.popDraw.record _).bringUp c hpar) fun _ _ h => h.respond _ _
  · exact ((h.popDraw.record _).setLife (hc .dead _ nofun) (hf .dead _ nofun)).abort _ _
  · exact (h.popDraw.record _).wait _
  · exact h.cutShort.record _
  · exact h.cutShort
  · exact h.cutShort

theorem tornDown_alike (h : Alike fc ff s t) : Alike fc ff (tornDown s) (tornDown t) :=
  (h.setLife (hc .down _ nofun) (hf .down _ nofun)).respond _ _

/-- An instruction that LIFE admits reads the parameters if it is GETTEMP, and CFG if it is GETTEMP or GETRAW; of
what it does not read nothing but the registers themselves depends. -/
theorem exec_alike (h : Alike fc ff s t) {i : Instr} (htemp : s.life = .up → i ≠ .getTemp)
    (hraw : s.life = .up → i = .getRaw → fc .up) :
    ∃ u v, exec i s = .next u ∧ exec i t = .next v ∧ Alike fc ff u v := by
  have hstart := h.startOp
  cases i with
  | encode | decode | reservedE | reservedF => exact ⟨_, _, rfl, rfl, hstart.respond _ _⟩
  | solve | resist | cvd | poly =>
    refine ⟨_, _, rfl, rfl, ?_⟩
    rw [h.params]
    exact hstart.respond _ _
  | cfgByteEncode | cfgByteDecode | raw16 => exact ⟨_, _, rfl, rfl, hstart.deliver _⟩
  | beginOp c => exact execBegin_alike hc hf h c fun _ => ⟨rfl, rfl⟩
  | endOp =>
    refine ⟨_, _, rfl, rfl, ?_⟩
    rw [h.life]
    split
    · exact busRelease_alike hstart fun _ _ => tornDown_alike hc hf
    · exact tornDown_alike hc hf hstart
  | setConfig =>
    exact ⟨_, _, rfl, rfl, needUp_alike h fun _ => cfgWr_alike (hstart.writeCfg _) fun _ _ h => h.respond _ _⟩
  | getConfig =>
    exact ⟨_, _, rfl, rfl, needUp_alike h fun _ => cfgRd_alike hstart fun _ _ _ h => h.respond _ _⟩
  | clearFault =>
    exact ⟨_, _, rfl, rfl, needUp_alike h fun _ => cfgRd_alike hstart fun _ _ _ h =>
      cfgWr_alike h fun _ _ h => h.respond _ _⟩
  | readFault =>
    exact ⟨_, _, rfl, rfl, needUp_alike h fun _ => faultRd_alike hstart fun _ _ _ h => h.respond _ _⟩
  | getRaw =>
    exact ⟨_, _, rfl, rfl, needUp_alike h fun hup =>
      acquireRatio_alike hstart (h.cfg (hup ▸ hraw hup rfl)) fun _ _ _ h => h.respond _ _⟩
  | getTemp => exact ⟨_, _, rfl, rfl, needUp_alike h fun hup => absurd rfl (htemp hup)⟩
  | cfgWr => exact ⟨_, _, rfl, rfl, cfgWr_alike hstart fun _ _ h => h.deliver _⟩
  | cfgRd => exact ⟨_, _, rfl, rfl, cfgRd_alike hstart fun _ _ _ h => h.deliver _⟩
  | rtdRd => exact ⟨_, _, rfl, rfl, rtdRd_alike hstart fun _ _ _ h => h.deliver _⟩
  | faultRd => exact ⟨_, _, rfl, rfl, faultRd_alike hstart fun _ _ _ h => h.deliver _⟩

end Instructions

/-- The two runs that a statement names are the two that go side by side. -/
theorem alike_of_exec {fc ff : Life → Prop} {i j : Instr} {s s' t t' : State}
    (h : ∃ u v, exec i s = .next u ∧ exec j s' = .next v ∧ Alike fc ff u v)
    (ht : exec i s = .next t) (ht' : exec j s' = .next t') : Alike fc ff t t' := by
  obtain ⟨u, v, hu, hv, halike⟩ := h
  cases hu.symm.trans ht
  cases hv.symm.trans ht'
  exact halike

/-- Settles O40: outside Up an instruction reads none of the three registers, and Up is reached by writing them
all. -/
theorem unspecifiedRegistersAreNotRead : Obligations.UnspecifiedRegistersAreNotRead := by
  refine ⟨rfl, rfl, rfl, fun i s t t' c x y hlife ht ht' => ?_⟩
  have hs : Alike (· = .up) (· = .up) s { s with cfg := c, rref := x, rnom := y } :=
    ⟨c, x, y, rfl, fun hup => absurd hup hlife, fun hup => absurd hup hlife⟩
  have h := alike_of_exec
    (exec_alike (fun _ _ hl hup => absurd hup hl) (fun _ _ hl hup => absurd hup hl) hs
      (fun hup => absurd hup hlife) (fun hup => absurd hup hlife)) ht ht'
  obtain ⟨hresp, hevents, hmicro, hlife', hseq, htmr, -⟩ := h.fields
  refine ⟨hresp, hevents, hmicro, hlife', fun hup => ?_⟩
  obtain ⟨hrref, hrnom⟩ := h.parameters hup
  simp [State.registers, h.cfg hup, hrref, hrnom, hlife', hseq, htmr]

/-- Settles O43: who writes the parameters is `exec_writes_parameters`; runs that differ in them, or in the
operands of BEGIN, go side by side with CFG equal. -/
theorem parametersWrittenByBeginReadByGetTemp : Obligations.ParametersWrittenByBeginReadByGetTemp := by
  have htrue : ∀ l l' : Life, l ≠ .up → True → True := fun _ _ _ => id
  have hfalse : ∀ l l' : Life, l ≠ .up → False → False := fun _ _ _ => id
  refine ⟨fun _ _ _ => exec_writes_parameters, fun c x y x' y' s t t' ht ht' => ?_,
    fun i s t t' x y hi ht ht' => ?_⟩
  · have h := alike_of_exec
      (execBegin_alike (fc := fun _ => True) (ff := fun _ => False) htrue hfalse (.refl s) c nofun) ht ht'
    obtain ⟨hresp, hevents, -, hlife, hseq, htmr, hpending⟩ := h.fields
    exact ⟨hresp, hevents, h.cfg trivial, hlife, hseq, htmr, hpending⟩
  · have hs : Alike (fun _ => True) (fun _ => False) s { s with rref := x, rnom := y } :=
      ⟨s.cfg, x, y, rfl, fun _ => rfl, nofun⟩
    have h := alike_of_exec (exec_alike htrue hfalse hs (fun _ => hi) fun _ _ => trivial) ht ht'
    obtain ⟨hresp, hevents, hmicro, hlife, hseq, htmr, hpending⟩ := h.fields
    exact ⟨hresp, hevents, hmicro, h.cfg trivial, hlife, hseq, htmr, hpending⟩

/-- Settles O44: who writes CFG is `exec_writes_cfg`; runs that differ in it go side by side with the parameters
equal. -/
theorem cfgWrittenByBeginAndSetConfigReadByAcquisition :
    Obligations.CfgWrittenByBeginAndSetConfigReadByAcquisition := by
  refine ⟨fun _ _ _ => exec_writes_cfg, fun i s t t' c hraw htemp ht ht' => ?_⟩
  have hs : Alike (fun _ => False) (fun _ => True) s { s with cfg := c } :=
    ⟨c, s.rref, s.rnom, rfl, nofun, fun _ => ⟨rfl, rfl⟩⟩
  have h := alike_of_exec
    (exec_alike (fun _ _ _ => id) (fun _ _ _ => id) hs (fun _ => htemp) fun _ hi => absurd hi hraw) ht ht'
  obtain ⟨hresp, hevents, hmicro, hlife, hseq, htmr, hpending⟩ := h.fields
  obtain ⟨hrref, hrnom⟩ := h.parameters trivial
  exact ⟨hresp, hevents, hmicro, hlife, hrref, hrnom, hseq, htmr, hpending⟩

end Sys2Proof.Machine

/-! PROOF. Family 20_memory: the register addresses are distinct (O7), a step runs what it decodes (O37), and a
success brings the chip in line with CFG (O46). -/

namespace Sys2Proof.Machine

/-! ## A success brings the chip in line -/

/-- In an operation in progress CFG holds `c`, and no response stands. -/
def InProgress (c : Configuration) (s : State) : Prop := s.cfg = c ∧ s.resp = none

/-- The last event is the write of `b` to the configuration register, and it succeeded. -/
def EndsWithWrite (b : Byte) (t : State) : Prop := ∃ before, t.events = before ++ [wrote b]

/-- Where the response is OK, the operation has last written the encoding of CFG (R94, R142, R144). -/
def OkAfterWritingCfg (t : State) : Prop :=
  ∀ r, t.resp = some ⟨.ok, r⟩ → EndsWithWrite (encodeConfig t.cfg) t

theorem okAfterWritingCfg_of_no_resp {t : State} (h : t.resp = none) : OkAfterWritingCfg t :=
  fun _ hr => nomatch h.symm.trans hr

/-- A response of another status than OK may come at any time. -/
theorem okAfterWritingCfg_respond_of_ne_ok (s : State) {st : Status} (r : Result) (hst : st ≠ .ok) :
    OkAfterWritingCfg (s.respond st r) := by
  rcases respond_cases s st r with ⟨-, h⟩ | ⟨-, h⟩ <;> rw [h]
  · intro _ hr
    cases hr
    exact absurd rfl hst
  · exact okAfterWritingCfg_of_no_resp rfl

theorem okAfterWritingCfg_respond {s : State} (st : Status) (r : Result)
    (hs : EndsWithWrite (encodeConfig s.cfg) s) : OkAfterWritingCfg (s.respond st r) := by
  rcases respond_cases s st r with ⟨-, h⟩ | ⟨-, h⟩ <;> rw [h]
  · exact fun _ _ => hs
  · exact okAfterWritingCfg_of_no_resp rfl

/-- An operation that a failure, a reset or a silent answer ends does not answer OK. -/
theorem inProgress_carries (c : Configuration) : Carries (InProgress c) OkAfterWritingCfg where
  event _ _ hs := hs
  delay _ _ hs := hs
  abort _ _ _ := okAfterWritingCfg_respond_of_ne_ok _ _ nofun
  wait _ _ hs := okAfterWritingCfg_of_no_resp hs.2
  cut _ _ := okAfterWritingCfg_of_no_resp rfl
  cutInside _ _ _ := okAfterWritingCfg_of_no_resp rfl

/-- An operation may answer OK as soon as it has written the encoding of CFG. -/
theorem cfgWr_okAfterWritingCfg {c : Configuration} {s : State} {k : State → State} (hs : InProgress c s)
    (hk : ∀ u, u.cfg = c → EndsWithWrite (encodeConfig c) u → OkAfterWritingCfg (k u)) :
    OkAfterWritingCfg (cfgWr (encodeConfig c) s k) :=
  have h := inProgress_carries c
  transact_cases _ s _
    (hok := fun _ _ _ => hk _ hs.1 ⟨s.events, rfl⟩)
    (herr := fun _ _ => h.abort _ _ (h.event s _ hs))
    (hsilent := fun _ => h.wait _ _ (h.event s _ hs))
    (hinside := h.cutInside s _ hs)
    (hbefore := h.cut s hs)

/-- What follows an acquisition may answer OK: the restore, its last step, has written the encoding of CFG. -/
theorem acquireRatio_okAfterWritingCfg {s : State} {k : Ratio → State → State} (hs : s.resp = none)
    (hk : ∀ ratio u, EndsWithWrite (encodeConfig u.cfg) u → OkAfterWritingCfg (k ratio u)) :
    OkAfterWritingCfg (acquireRatio s k) :=
  have hcarry : ∀ w, w <+: fullWalk → Carries (InProgress s.cfg) OkAfterWritingCfg :=
    fun _ _ => inProgress_carries s.cfg
  have henter : ∀ (_ : List SeqState) q u, InProgress s.cfg u → InProgress s.cfg (u.enter q) :=
    fun _ _ _ hu => hu
  biasStep_carries (I := fun _ => InProgress s.cfg) hcarry henter ⟨rfl, hs⟩ fun _ h1 =>
    conversionStep_carries hcarry henter h1 fun _ h2 =>
      readBackStep_carries hcarry henter h2 fun ratio v h3 =>
        cfgWr_okAfterWritingCfg (s := v.enter .restore) h3 fun u hcfg hu => hk ratio (u.enter .idle) (hcfg ▸ hu)

/-- The four operations that may answer OK only after a write of CFG's encoding. -/
theorem exec_okAfterWritingCfg {i : Instr}
    (hi : i = .getRaw ∨ i = .getTemp ∨ (∃ c, i = .setConfig c) ∨ ∃ c x y, i = .beginOp c x y) (s : State) :
    Leaves i s OkAfterWritingCfg := by
  have hrefuse : OkAfterWritingCfg (s.startOp.respond .notReady .none) :=
    okAfterWritingCfg_respond_of_ne_ok _ _ nofun
  have hwritten : ∀ (c : Configuration) (u : State), u.cfg = c → EndsWithWrite (encodeConfig c) u →
      OkAfterWritingCfg (u.respond .ok .none) := fun _ _ hcfg hu => okAfterWritingCfg_respond _ _ (hcfg ▸ hu)
  have hacquired : ∀ r : Ratio → State → Result,
      OkAfterWritingCfg (needUp s fun u => acquireRatio u fun ratio v => v.returnOk (r ratio v)) := fun _ =>
    needUp_cases s _ (fun _ => acquireRatio_okAfterWritingCfg rfl fun _ _ => okAfterWritingCfg_respond _ _)
      fun _ => hrefuse
  rcases hi with rfl | rfl | ⟨c, rfl⟩ | ⟨c, x, y, rfl⟩
  · exact ⟨_, rfl, hacquired fun ratio _ => .ratio ratio⟩
  · exact ⟨_, rfl, hacquired fun ratio u => .float (solveOn u.params ratio u.rref u.rnom)⟩
  · exact ⟨_, rfl, needUp_cases s _ (fun _ => cfgWr_okAfterWritingCfg (s := { s.startOp with cfg := c })
      ⟨rfl, rfl⟩ (hwritten c)) fun _ => hrefuse⟩
  · exact ⟨_, rfl, needDown_cases s _
      (fun _ => busAcquire_carries (inProgress_carries s.cfg) (s := s.startOp) ⟨rfl, rfl⟩
        (hk := fun u hu => cfgWr_okAfterWritingCfg (s := u.bringUp c x y) ⟨rfl, hu.2⟩ (hwritten c))
        (hdead := fun _ _ _ => okAfterWritingCfg_respond_of_ne_ok _ _ nofun)
        (hwait := fun _ hu => okAfterWritingCfg_of_no_resp hu.2)) fun _ => hrefuse⟩

/-! ### The reference chip (R37) -/

theorem replay_append (es es' : List Event) (chip : RefChip) :
    chip.replay (es ++ es') = (chip.replay es).bind fun chip' => chip'.replay es' := by
  induction es generalizing chip with
  | nil => rfl
  | cons e es ih =>
    simp only [List.cons_append, RefChip.replay]
    cases chip.after e with
    | none => rfl
    | some chip' => exact ih chip'

@[simp] theorem after_wrote (chip : RefChip) (b : Byte) : chip.after (wrote b) = some (chip.written b) := by
  simp [RefChip.after, wrote, Request.write]

/-- After a history that ends with the write of `b` the chip holds `b` without its write-only bits. -/
theorem cfgreg_of_replay {t : State} {b : Byte} {chip chip' : RefChip} (ht : EndsWithWrite b t)
    (h : chip.replay t.events = some chip') : chip'.cfgreg = b &&& 0xDD#8 := by
  obtain ⟨before, hevents⟩ := ht
  rw [hevents, replay_append] at h
  obtain ⟨chip₁, -, h₁⟩ := Option.bind_eq_some_iff.1 h
  simp only [RefChip.replay, after_wrote] at h₁
  cases h₁
  rfl

/-- The encoding of a Configuration has neither of the two write-only bits that the chip drops (R37, R64). -/
theorem encodeConfig_and_chip_mask (c : Configuration) : encodeConfig c &&& 0xDD#8 = encodeConfig c :=
  have hmask : ∀ b : Byte, b &&& 0x22#8 = 0#8 → b &&& 0xDD#8 = b := by decide
  hmask _ (Laws.RowMatch.cfgByteEncode c rfl)

/-- Settles O46: a success comes after the write of CFG's encoding, which the chip keeps as it is. -/
theorem successBringsTheChipInLine : Obligations.SuccessBringsTheChipInLine := by
  intro i s t r chip chip' hi ht hresp hreplay
  have hwrite : EndsWithWrite (encodeConfig t.cfg) t := (exec_okAfterWritingCfg hi s).of_exec ht r hresp
  rw [cfgreg_of_replay hwrite hreplay, encodeConfig_and_chip_mask]

/-! ## The register addresses -/

/-- Indices at different distances from `a`, below the 128 there are, differ. -/
theorem add_ofNat_ne (a : RegIndex) {m n : Nat} (hm : m < 128) (hn : n < 128) (hne : m ≠ n) :
    a + BitVec.ofNat 7 m ≠ a + BitVec.ofNat 7 n := by
  intro h
  have hmod : m % 128 = n % 128 := congrArg BitVec.toNat ((BitVec.add_right_inj a).1 h)
  omega

/-- `ADDR_FAULT` lies neither at the distance 0 of `ADDR_CONFIG` nor at that of `ADDR_RTD`. -/
theorem addrFault_eq : ∃ n < 128, n ≠ 0 ∧ n ≠ Config.rtdStep.val + 1 ∧
    Config.addrFault = Config.addrConfig + BitVec.ofNat 7 n := by
  refine ⟨_, ?_, ?_, ?_, rfl⟩ <;> split <;> omega

/-- Settles O7: the three addresses lie at different distances from `ADDR_CONFIG`. -/
theorem registerAddressesAreDistinct : Obligations.RegisterAddressesAreDistinct := by
  obtain ⟨n, hn, hconfig, hrtd, hfault⟩ := addrFault_eq
  have hstep : Config.rtdStep.val + 1 < 128 := by omega
  have hzero : Config.addrConfig + BitVec.ofNat 7 0 = Config.addrConfig := BitVec.add_zero _
  refine ⟨?_, ?_, ?_⟩
  · exact hzero.symm.trans_ne (add_ofNat_ne _ (by decide) hstep (Nat.succ_ne_zero _).symm)
  · exact hfault ▸ hzero.symm.trans_ne (add_ofNat_ne _ (by decide) hn hconfig.symm)
  · exact hfault ▸ add_ofNat_ne _ hstep hn hrtd.symm

/-! ## The step -/

/-- A ready port offers what is presented first, as sampled on it. -/
theorem fetch_of_ready {s : State} {p : Presented} {q : List Presented} (hready : s.cmdReady = true)
    (hqueue : s.queue = p :: q) : s.fetch = some (p.onPorts s.params.num.fw, { s with queue := q }) := by
  simp [State.fetch, hready, hqueue]

/-- With nothing presented the port offers nothing. -/
theorem fetch_of_queue_nil {s : State} (hqueue : s.queue = []) : s.fetch = none := by
  simp [State.fetch, hqueue]

/-- With no reset a step runs what it takes from the port. -/
theorem step_of_fetch {s t : State} {p : Presented} {i : Instr} (hpin : s.resetPin = false)
    (hdue : s.resetDue = false) (hfetch : s.fetch = some (p, t)) (hdecode : decode p = .ok i) :
    step s = exec i t := by
  simp [step, hpin, hdue, hfetch, hdecode]

/-- With no reset and nothing to take the block stays as it is. -/
theorem step_of_fetch_none {s : State} (hpin : s.resetPin = false) (hdue : s.resetDue = false)
    (hfetch : s.fetch = none) : step s = .next s := by
  simp [step, hpin, hdue, hfetch]

/-- Settles O37: a ready port offers the head of the queue, and an empty queue offers nothing. -/
theorem stepRunsTheDecodedInstruction : Obligations.StepRunsTheDecodedInstruction := by
  refine ⟨fun s p q i hpin hdue hseq hpending hqueue hdecode => ?_, fun s hpin hdraw hqueue => ?_⟩
  · have hready : s.cmdReady = true := (cmdReady_iff s).2 ⟨hseq, hpending⟩
    exact step_of_fetch hpin hdue (fetch_of_ready hready hqueue) hdecode
  · exact step_of_fetch_none hpin (resetDue_of_not_reset hdraw) (fetch_of_queue_nil hqueue)

end Sys2Proof.Machine

/-! PROOF. Family 30_encoding: the encoder and the decoder are inverse to each other (O1, O2), the rows of the opcode
table and the words they accept (O3, O4, O5), the bytes of the two sides of a transaction (O6, O8, O12), what the
fault flag of the raw word changes (O20), how an operation ends (O35), and what is refused or not accepted at all
(O29, O31, O32, O36). -/

namespace Sys2Proof

/-! ## The fields of a command word (R57) -/

@[simp] theorem opField_cmdWord (op : BitVec 4) (imm : BitVec 16) : opField (cmdWord op imm) = op := by
  rw [opField, cmdWord, BitVec.extractLsb'_append_eq_of_le (by decide), BitVec.extractLsb'_append_eq_left]

@[simp] theorem zeroField_cmdWord (op : BitVec 4) (imm : BitVec 16) : zeroField (cmdWord op imm) = 0#12 := by
  rw [zeroField, cmdWord, BitVec.extractLsb'_append_eq_of_le (by decide), BitVec.extractLsb'_append_eq_right]

@[simp] theorem immField_cmdWord (op : BitVec 4) (imm : BitVec 16) : immField (cmdWord op imm) = imm :=
  BitVec.extractLsb'_append_eq_right

/-- A word is its three fields side by side. -/
theorem fields_append (cw : CmdWord) : opField cw ++ zeroField cw ++ immField cw = cw := by
  rw [opField, zeroField, immField, BitVec.extractLsb'_append_extractLsb'_eq_extractLsb' (by rfl),
    BitVec.extractLsb'_append_extractLsb'_eq_extractLsb' (by rfl)]
  exact BitVec.extractLsb'_eq_self

/-- A word whose reserved bits are zero is the word of its OP and its IMM. -/
theorem cmdWord_of_fields {cw : CmdWord} {op : Nat} (hop : (opField cw).toNat = op)
    (hzero : zeroField cw = 0#12) : cmdWord (BitVec.ofNat 4 op) (immField cw) = cw := by
  rw [← hop, BitVec.ofNat_toNat, BitVec.setWidth_eq, cmdWord, ← hzero, fields_append]

/-- A word with no bit of IMM set is the word of its OP alone. -/
theorem cmdWord_zero_of_fields {cw : CmdWord} {op : Nat} (hop : (opField cw).toNat = op)
    (hzero : zeroField cw = 0#12) (himm : immField cw >>> 0 = 0#16) : cmdWord (BitVec.ofNat 4 op) 0#16 = cw := by
  rw [← himm, BitVec.ushiftRight_zero]
  exact cmdWord_of_fields hop hzero

/-! ## The operand in IMM -/

/-- An operand is read back from the low bits of IMM. -/
theorem extractLsb'_setWidth_imm {k : Nat} (hk : k ≤ 16) (v : BitVec k) :
    (v.setWidth 16).extractLsb' 0 k = v := by
  rw [BitVec.extractLsb'_setWidth_of_le (by omega), BitVec.extractLsb'_eq_self]

/-- An IMM whose bits from `k` up are zero is its low `k` bits. -/
theorem setWidth_extractLsb'_of_ushiftRight {imm : BitVec 16} {k : Nat} (h : imm >>> k = 0#16) :
    (imm.extractLsb' 0 k).setWidth 16 = imm := by
  have hdiv : imm.toNat / 2 ^ k = 0 := by
    rw [← Nat.shiftRight_eq_div_pow]
    exact congrArg BitVec.toNat h
  have hlt : imm.toNat < 2 ^ k := (Nat.div_eq_zero_iff_lt (Nat.two_pow_pos k)).1 hdiv
  apply BitVec.eq_of_toNat_eq
  simp [Nat.mod_eq_of_lt hlt, imm.isLt]

theorem withImm_eq_ok_iff {imm : BitVec 16} {used : Nat} {i j : Instr} :
    withImm imm used i = .ok j ↔ imm >>> used = 0#16 ∧ i = j := by
  unfold withImm
  split <;> simp [*]

/-- An operand of as many bits as the operation uses is accepted. -/
theorem withImm_setWidth {k : Nat} (v : BitVec k) (i : Instr) : withImm (v.setWidth 16) k i = .ok i := by
  refine withImm_eq_ok_iff.2 ⟨?_, rfl⟩
  ext j hj
  simp

/-! ## The two codings of a Configuration (R51, R52) -/

@[simp] theorem unpackCfg6_packCfg6 (c : Configuration) : unpackCfg6 (packCfg6 c) = c := by
  rcases c with ⟨_ | _, _ | _, _ | _, _ | _ | _ | _, _ | _⟩ <;> rfl

@[simp] theorem packCfg6_unpackCfg6 (v : BitVec 6) : packCfg6 (unpackCfg6 v) = v := by
  revert v
  decide

@[simp] theorem configOfEncoded_encodeConfig (c : Configuration) : configOfEncoded (encodeConfig c) = c := by
  rcases c with ⟨_ | _, _ | _, _ | _, _ | _ | _ | _, _ | _⟩ <;> rfl

/-- A byte without the two write-only bits is the byte of its Configuration. -/
theorem encodeConfig_configOfEncoded {b : Byte} (h : b &&& 0x22#8 = 0#8) :
    encodeConfig (configOfEncoded b) = b := by
  revert b
  decide

/-- ENCODE never sets a write-only bit (R64). -/
@[simp] theorem encodeConfig_and_writeOnly (c : Configuration) : encodeConfig c &&& 0x22#8 = 0#8 :=
  Laws.RowMatch.cfgByteEncode c rfl

/-! ## The address byte (R54) -/

theorem writeAddrByte_toNat (a : RegIndex) : (writeAddrByte a).toNat = 128 + a.toNat := by
  revert a
  decide

theorem readAddrByte_toNat (a : RegIndex) : (readAddrByte a).toNat = a.toNat := by
  revert a
  decide

theorem readAddrByte_ne_writeAddrByte (a a' : RegIndex) : readAddrByte a ≠ writeAddrByte a' := by
  intro h
  have hnat := congrArg BitVec.toNat h
  rw [readAddrByte_toNat, writeAddrByte_toNat] at hnat
  omega

theorem readAddrByte_inj {a a' : RegIndex} : readAddrByte a = readAddrByte a' ↔ a = a' := by
  refine ⟨fun h => BitVec.eq_of_toNat_eq ?_, congrArg _⟩
  rw [← readAddrByte_toNat, h, readAddrByte_toNat]

/-- Settles O6, by the two numbers. -/
theorem addressByteCarriesSelectAndIndex : Obligations.AddressByteCarriesSelectAndIndex :=
  fun a => ⟨writeAddrByte_toNat a, readAddrByte_toNat a⟩

/-! ## Decoding what has been encoded -/

/-- Settles O1, by the fields of the word that each instruction is given: the fourteen operations by OP and IMM,
the reserved rows by OP, the transactions by address bytes that differ (R34), the formats by their codings. -/
theorem decodeOfEncodeIsTheInstruction : Obligations.DecodeOfEncodeIsTheInstruction := by
  intro i hwf
  obtain ⟨hrtd, hfault, hrtdFault⟩ := Machine.registerAddressesAreDistinct
  cases i with
  | encode | setConfig | beginOp | decode | solve | resist =>
    simp [encode, decode, decodeCmd, withImm_setWidth, extractLsb'_setWidth_imm]
  | endOp | getConfig | clearFault | readFault | getRaw | getTemp | cvd | poly =>
    simp [encode, decode, decodeCmd, withImm]
  | reservedE cw | reservedF cw =>
    have hop : opField cw = _ := eq_of_beq hwf
    simp [encode, decode, decodeCmd, hop]
  | cfgWr | cfgRd | rtdRd | faultRd =>
    simp [encode, decode, decodeAddrByte, readAddrByte_ne_writeAddrByte, readAddrByte_inj, hrtd.symm,
      hfault.symm, hrtdFault.symm]
  | cfgByteEncode => simp [encode, decode]
  | cfgByteDecode | raw16 => rfl

/-! ## Encoding what has been decoded -/

/-- What the command port decodes is encoded as the word presented, with the operand ports that it uses. -/
theorem encode_of_decodeCmd {cw : CmdWord} {fa fb : Flt} {i : Instr} (h : decodeCmd cw fa fb = .ok i) :
    i.wf = true ∧ encode i = .cmd cw (if i.usesFa then fa else 0) (if i.usesFb then fb else 0) := by
  unfold decodeCmd at h
  dsimp only at h
  split at h
  case h_1 hop | h_2 hop =>
    cases h
    exact ⟨beq_of_eq (BitVec.eq_of_toNat_eq hop), rfl⟩
  case h_3 =>
    split at h
    · cases h
    next hzero =>
    rw [not_not] at hzero
    split at h <;> obtain ⟨himm, rfl⟩ := withImm_eq_ok_iff.1 h <;> refine ⟨rfl, ?_⟩
    -- the operations with an operand in IMM
    case h_1 hop | h_2 hop | h_3 hop | h_5 hop | h_11 hop | h_12 hop =>
      simp [encode, setWidth_extractLsb'_of_ushiftRight himm, cmdWord_of_fields hop hzero, Instr.usesFa, Instr.usesFb]
    -- the operations that use no bit of IMM
    case h_4 hop | h_6 hop | h_7 hop | h_8 hop | h_9 hop | h_10 hop | h_13 hop =>
      simp [encode, cmdWord_zero_of_fields hop hzero himm, Instr.usesFa, Instr.usesFb]
    -- POLY, the one OP left
    case h_14 =>
      have hop : (opField cw).toNat = 13 := by
        have hlt := (opField cw).isLt
        simp only [imp_false] at *
        omega
      simp [encode, cmdWord_zero_of_fields hop hzero himm, Instr.usesFa, Instr.usesFb]

/-- Settles O2, format by format. -/
theorem encodeOfDecodeIsTheWord : Obligations.EncodeOfDecodeIsTheWord := by
  refine ⟨fun _ _ _ _ => encode_of_decodeCmd, fun ab payload i h => ?_, fun b i h => ?_, fun b i h => ?_,
    fun w i h => ?_⟩
  · rw [decode, decodeAddrByte] at h
    split_ifs at h with hwr hcfg hrtd hfault <;> cases h
    · exact ⟨rfl, hwr ▸ rfl⟩
    · exact ⟨rfl, hcfg ▸ rfl⟩
    · exact ⟨rfl, hrtd ▸ rfl⟩
    · exact ⟨rfl, hfault ▸ rfl⟩
  · rw [decode] at h
    split_ifs at h with hbits
    cases h
    exact ⟨rfl, congrArg Presented.cfgbEncode (encodeConfig_configOfEncoded hbits)⟩
  · cases h
    exact ⟨rfl, rfl⟩
  · cases h
    exact ⟨rfl, rfl⟩

/-! ## The rows of the opcode table (R60, R63) -/

/-- Every row compares the whole OP field, so the words of a row have its OP. -/
theorem opField_of_accepts {r : CmdRow} (hr : r ∈ operationRows ++ reservedRows) {cw : CmdWord}
    (h : r.accepts cw = true) : opField cw = opField r.value := by
  have hmask : ∀ r ∈ operationRows ++ reservedRows, opField r.mask = BitVec.allOnes 4 := by decide
  rw [← eq_of_beq h, opField, opField, BitVec.extractLsb'_and]
  change _ = _ &&& opField r.mask
  rw [hmask r hr, BitVec.and_allOnes]

/-- Settles O3: the rows have sixteen different OPs. -/
theorem commandRowsAreDisjoint : Obligations.CommandRowsAreDisjoint := by
  have hops : (operationRows ++ reservedRows).Pairwise fun r r' => opField r.value ≠ opField r'.value := by
    decide
  refine hops.imp_of_mem fun hr hr' hne cw ⟨h, h'⟩ => hne ?_
  rw [← opField_of_accepts hr h, opField_of_accepts hr' h']

/-- How many low bits of IMM the operation of an OP uses (R57). -/
def operandBits (op : BitVec 4) : Nat :=
  match op.toNat with
  | 0 | 2 | 4 => 6
  | 1 => 8
  | 10 | 11 => 15
  | _ => 0

/-- The decoder takes a word of one of the fourteen OPs whose unused bits are zero for an operation. -/
theorem decodeCmd_cmdWord_isOperation {op : BitVec 4} {imm : BitVec 16} (fa fb : Flt) (hop : op.toNat < 14)
    (himm : imm >>> operandBits op = 0#16) :
    ∃ i, decodeCmd (cmdWord op imm) fa fb = .ok i ∧ i.isOperation = true := by
  unfold decodeCmd
  simp only [opField_cmdWord, zeroField_cmdWord, immField_cmdWord]
  unfold operandBits at himm
  split
  · omega
  · omega
  · rw [if_neg (not_not.2 rfl)]
    split <;> exact ⟨_, withImm_eq_ok_iff.2 ⟨by simp_all, rfl⟩, rfl⟩

/-- The row of an operation masks all bits but those of its operand. -/
theorem operationRows_mask : ∀ r ∈ operationRows, (opField r.value).toNat < 14 ∧
    operandBits (opField r.value) ≤ 16 ∧ r.value = cmdWord (opField r.value) 0#16 ∧
    r.mask = BitVec.allOnes 32 <<< operandBits (opField r.value) := by
  decide

/-- A word that equals `op` with IMM 0 under a mask of the bits from `k` up has no other bits there. -/
theorem cmdWord_of_masked {cw : CmdWord} {op : BitVec 4} {k : Nat} (hk : k ≤ 16)
    (h : cw &&& (BitVec.allOnes 32 <<< k) = cmdWord op 0#16) :
    ∃ imm, cw = cmdWord op imm ∧ imm >>> k = 0#16 := by
  have hop : opField cw = opField (cw &&& (BitVec.allOnes 32 <<< k)) := by
    ext j hj
    simp [opField, -BitVec.reduceAllOnes, show k ≤ 28 + j by omega, show 28 + j < 32 by omega]
  have hzero : zeroField cw = zeroField (cw &&& (BitVec.allOnes 32 <<< k)) := by
    ext j hj
    simp [zeroField, -BitVec.reduceAllOnes, show k ≤ 16 + j by omega, show 16 + j < 32 by omega]
  have himm : immField cw >>> k = immField (cw &&& (BitVec.allOnes 32 <<< k)) >>> k := by
    ext j hj
    by_cases hj' : k + j < 16
    · simp [immField, -BitVec.reduceAllOnes, show k + j < 32 by omega]
    · simp [immField, hj']
  rw [h, opField_cmdWord] at hop
  rw [h, zeroField_cmdWord] at hzero
  rw [h, immField_cmdWord, BitVec.zero_ushiftRight] at himm
  exact ⟨immField cw, by rw [cmdWord, ← hop, ← hzero, fields_append], himm⟩

/-- A word of an operation's row is decoded to an operation. -/
theorem decodeCmd_of_accepts (fa fb : Flt) {r : CmdRow} (hr : r ∈ operationRows) {cw : CmdWord}
    (h : r.accepts cw = true) : ∃ i, decodeCmd cw fa fb = .ok i ∧ i.isOperation = true := by
  obtain ⟨hop, hbits, hvalue, hmask⟩ := operationRows_mask r hr
  have hcw : cw &&& r.mask = r.value := eq_of_beq h
  rw [hmask, hvalue, opField_cmdWord] at hcw
  obtain ⟨imm, rfl, himm⟩ := cmdWord_of_masked hbits hcw
  exact decodeCmd_cmdWord_isOperation fa fb hop himm

end Sys2Proof

namespace Sys2Proof.Machine

/-! ## The raw word and the configuration byte (R53, R55, R64) -/

theorem assembleRaw_toNat (d0 d1 : Byte) : (assembleRaw d0 d1).toNat = d0.toNat * 256 + d1.toNat := by
  rw [assembleRaw, BitVec.toNat_append, ← Nat.shiftLeft_add_eq_or_of_lt d1.isLt, Nat.shiftLeft_eq]

theorem ratioOf_toNat (w : Raw16) : (ratioOf w).toNat = w.toNat / 2 := by
  rw [ratioOf, BitVec.extractLsb'_toNat, Nat.shiftRight_eq_div_pow]
  have := w.isLt
  omega

/-- Settles O8, by the two numbers. -/
theorem ratioIsTheRawWordHalved : Obligations.RatioIsTheRawWordHalved := fun d0 d1 =>
  ⟨assembleRaw_toNat d0 d1, by rw [ratioOf_toNat, assembleRaw_toNat]⟩

/-- DECODE does not read the high bit of the fault-detection field (R71). -/
theorem decodeConfig_fdc (b : Byte) : (decodeConfig b).fdc = .noAction ∨ (decodeConfig b).fdc = .automatic := by
  change FaultCycle.ofBits false (b.getLsbD 2) = _ ∨ FaultCycle.ofBits false (b.getLsbD 2) = _
  cases b.getLsbD 2
  · exact .inl rfl
  · exact .inr rfl

/-- Settles O12: no byte gives a cycle that `decodeConfig_fdc` leaves out; for each of the 32 other Configurations
the 256 bytes are counted. -/
theorem eightBytesDecodeToEachConfiguration : Obligations.EightBytesDecodeToEachConfiguration := by
  intro c
  refine ⟨encodeConfig_and_writeOnly c, ?_⟩
  obtain ⟨vbias, auto, wire, fdc, filter⟩ := c
  cases fdc with
  | noAction | automatic => cases wire <;> cases filter <;> revert vbias auto <;> decide
  | runManual | finishManual =>
    refine List.length_eq_zero_iff.2 (List.filter_eq_nil_iff.2 fun n _ h => ?_)
    have hfdc := decodeConfig_fdc (BitVec.ofNat 8 n)
    rw [of_decide_eq_true h] at hfdc
    simp at hfdc

/-! ## What is refused -/

/-- Settles O32: a reserved row answers at once. -/
theorem reservedRowsAnswerBadCommand : Obligations.ReservedRowsAnswerBadCommand := fun _ _ h =>
  ⟨congrArg _ (startOp_respond_undisturbed _ _ h), congrArg _ (startOp_respond_undisturbed _ _ h)⟩

/-- Settles O29: what LIFE refuses is answered at once. -/
theorem operationsNotAdmittedChangeNothing : Obligations.OperationsNotAdmittedChangeNothing := by
  rintro i s (⟨hi, hlife⟩ | ⟨⟨c, x, y, rfl⟩, hlife⟩) h
  · have hrefuse : ∀ k, needUp s k = s.ended .notReady .none [] [] 0 := fun _ =>
      (needUp_of_not_up hlife).trans (startOp_respond_undisturbed _ _ h)
    cases i with
    | setConfig | getConfig | clearFault | readFault | getRaw | getTemp => exact congrArg _ (hrefuse _)
    | _ => cases hi
  · exact congrArg _ ((needDown_of_not_down hlife).trans (startOp_respond_undisturbed _ _ h))

/-- Settles O31: a format run alone delivers at once. -/
theorem dataFormatRowsComplete : Obligations.DataFormatRowsComplete := by
  refine fun s => ⟨fun _ => rfl, fun _ => rfl, fun w => ?_⟩
  have hratio : ratioOf w = BitVec.ofNat 15 (w.toNat / 2) := by
    rw [← ratioOf_toNat, BitVec.ofNat_toNat, BitVec.setWidth_eq]
  rw [← hratio]
  rfl

/-- Settles O5, by running the decoder on each word. -/
theorem wordsOfTheSpecDecode : Obligations.WordsOfTheSpecDecode := fun _ _ =>
  ⟨rfl, rfl, rfl, rfl, rfl, rfl, rfl, rfl, rfl, rfl⟩

/-! ### Illegal command words -/

/-- The words of an operation are of its row. -/
theorem operation_word_accepted {i : Instr} (hi : i.isOperation = true) {cw : CmdWord} {fa fb : Flt}
    (h : encode i = .cmd cw fa fb) : ∃ r ∈ operationRows, r.accepts cw = true := by
  have hrow : Laws.RowMatch.Statement i ∧ i.wf = true ∧ ∃ n : Nat, Laws.rowOf i = operationRows[n]? := by
    cases i with
    | encode c => exact ⟨Laws.RowMatch.encode c, rfl, _, rfl⟩
    | decode b => exact ⟨Laws.RowMatch.decode b, rfl, _, rfl⟩
    | beginOp c x y => exact ⟨Laws.RowMatch.beginOp c x y, rfl, _, rfl⟩
    | endOp => exact ⟨Laws.RowMatch.endOp, rfl, _, rfl⟩
    | setConfig c => exact ⟨Laws.RowMatch.setConfig c, rfl, _, rfl⟩
    | getConfig => exact ⟨Laws.RowMatch.getConfig, rfl, _, rfl⟩
    | clearFault => exact ⟨Laws.RowMatch.clearFault, rfl, _, rfl⟩
    | readFault => exact ⟨Laws.RowMatch.readFault, rfl, _, rfl⟩
    | getRaw => exact ⟨Laws.RowMatch.getRaw, rfl, _, rfl⟩
    | getTemp => exact ⟨Laws.RowMatch.getTemp, rfl, _, rfl⟩
    | solve ratio x y => exact ⟨Laws.RowMatch.solve ratio x y, rfl, _, rfl⟩
    | resist ratio x => exact ⟨Laws.RowMatch.resist ratio x, rfl, _, rfl⟩
    | cvd x y => exact ⟨Laws.RowMatch.cvd x y, rfl, _, rfl⟩
    | poly x y => exact ⟨Laws.RowMatch.poly x y, rfl, _, rfl⟩
    | _ => cases hi
  obtain ⟨hmatch, hwf, n, hn⟩ := hrow
  have hword := hmatch hwf
  rw [h] at hword
  obtain ⟨r, hr, haccepts⟩ := hword
  exact ⟨r, List.mem_of_getElem? (hn ▸ hr), haccepts⟩

/-- A command word that is decoded is of an operation's row, or it is decoded to a reserved row. -/
theorem decodeCmd_row_or_reserved {cw : CmdWord} {fa fb : Flt} {i : Instr} (h : decodeCmd cw fa fb = .ok i) :
    (∃ r ∈ operationRows, r.accepts cw = true) ∨ i = .reservedE cw ∨ i = .reservedF cw := by
  obtain ⟨-, hword⟩ := encode_of_decodeCmd h
  cases hi : i.isOperation
  · refine .inr ?_
    cases i with
    | reservedE | reservedF => cases hword; simp
    | cfgWr | cfgRd | rtdRd | faultRd | cfgByteEncode | cfgByteDecode | raw16 => cases hword
    | _ => cases hi
  · exact .inl (operation_word_accepted hi hword)

/-- The command port rejects for the two reasons of R63 only. -/
theorem decodeCmd_eq_error {cw : CmdWord} {fa fb : Flt} {e : DecodeError} (h : decodeCmd cw fa fb = .error e) :
    e = .reservedBits ∨ e = .unusedImm := by
  have himm : ∀ {imm : BitVec 16} {used : Nat} {i : Instr}, withImm imm used i = .error e → e = .unusedImm := by
    intro imm used i h
    unfold withImm at h
    split at h <;> cases h
    rfl
  unfold decodeCmd at h
  dsimp only at h
  split at h
  · cases h
  · cases h
  · split at h
    · cases h
      exact .inl rfl
    · split at h <;> exact .inr (himm h)

/-- With no reset a step answers for what it takes from the port and cannot decode. -/
theorem step_of_fetch_rejected {s t : State} {p : Presented} {e : DecodeError} (hpin : s.resetPin = false)
    (hdue : s.resetDue = false) (hfetch : s.fetch = some (p, t)) (hdecode : decode p = .error e) :
    step s = reject e t := by
  simp [step, hpin, hdue, hfetch, hdecode]

theorem Draw.endsOperation_of_not_reset {d : Draw} (h : d.isReset = false) : d.endsOperation = false := by
  rcases d with _ | _ | _
  · rfl
  · rfl
  · cases h

/-- Settles O4: a word of no operation's row is rejected by the decoder or is of a reserved row, and is refused
either way. -/
theorem illegalCommandWordsAnswerBadCommand : Obligations.IllegalCommandWordsAnswerBadCommand := by
  refine ⟨fun s cw fa fb q hpin hdraw hready hqueue hrows => ?_,
    fun cw fa fb r hr h => decodeCmd_of_accepts fa fb hr h⟩
  have hdue := resetDue_of_not_reset hdraw
  have hfetch := fetch_of_ready hready hqueue
  have hundisturbed : State.undisturbed { s with queue := q } 0 := Draw.endsOperation_of_not_reset hdraw
  rcases hdecode : decode (.cmd cw (fa % 2 ^ s.params.num.fw) (fb % 2 ^ s.params.num.fw)) with e | i
  · rw [step_of_fetch_rejected hpin hdue hfetch hdecode]
    rcases decodeCmd_eq_error hdecode with rfl | rfl <;>
      exact congrArg _ (startOp_respond_undisturbed _ _ hundisturbed)
  · obtain ⟨hE, hF⟩ := reservedRowsAnswerBadCommand cw _ hundisturbed
    rw [step_of_fetch hpin hdue hfetch hdecode]
    rcases decodeCmd_row_or_reserved hdecode with ⟨r, hr, h⟩ | rfl | rfl
    · simp [hrows r hr] at h
    · exact hE
    · exact hF

/-! ## A busy block -/

/-- A port that is not ready offers nothing. -/
theorem fetch_of_not_ready {s : State} (h : s.cmdReady = false) : s.fetch = none := by
  unfold State.fetch
  split
  · rfl
  · simp [h]

/-- Where the port offers nothing, a reset comes whenever the environment asserts its input. -/
theorem resetDue_of_fetch_none {s : State} (h : s.fetch = none) : s.resetDue = s.draw.isReset := by
  unfold State.resetDue
  rcases s.draw with _ | _ | (_ | _ | _) <;> simp [h, Draw.isReset]

/-- Settles O36: the port of a busy block offers nothing. -/
theorem busyBlockAcceptsNothing : Obligations.BusyBlockAcceptsNothing := by
  intro s hpin hbusy
  have hready : s.cmdReady = false := by
    rw [← Bool.not_eq_true, cmdReady_iff, not_and_or]
    exact hbusy.symm
  have hfetch := fetch_of_not_ready hready
  have hdue := resetDue_of_fetch_none hfetch
  exact ⟨fun hdraw => step_of_fetch_none hpin (hdue.trans hdraw) hfetch, fun hdraw => by
    simp [step, hpin, hdue, hdraw]⟩

/-! ## The fault flag of the raw word (R53)

Two runs of one acquisition, over scripts that differ in bit 0 of second bytes only, go side by side: their histories
differ, and nothing else. -/

/-- The same input, or a success whose second byte differs in bit 0. -/
inductive Draw.SameButFlag : Draw → Draw → Prop
  | same (d : Draw) : SameButFlag d d
  | flag (d0 d1 : Byte) : SameButFlag (.answer (.ok d0 d1)) (.answer (.ok d0 (d1 ^^^ 1#8)))

theorem Draw.SameButFlag.endsOperation {d d' : Draw} (h : d.SameButFlag d') :
    d'.endsOperation = d.endsOperation := by
  cases h <;> rfl

/-- `t` is `s` but for the history, and for the flag in the inputs to come. -/
def ButFlag (s t : State) : Prop :=
  ∃ q es, t = { s with script := q, events := es } ∧ List.Forall₂ Draw.SameButFlag s.script q

section ButFlag

variable {s t : State}

theorem ButFlag.outcome (h : ButFlag s t) : t.resp = s.resp ∧ t.registers = s.registers := by
  obtain ⟨_, _, rfl, -⟩ := h
  exact ⟨rfl, rfl⟩

/-- What an acquisition reads of the state beside its inputs. -/
theorem ButFlag.reads (h : ButFlag s t) :
    t.life = s.life ∧ t.cfg = s.cfg ∧ t.params = s.params ∧ t.rref = s.rref ∧ t.rnom = s.rnom := by
  obtain ⟨_, _, rfl, -⟩ := h
  exact ⟨rfl, rfl, rfl, rfl, rfl⟩

theorem ButFlag.draw (h : ButFlag s t) : s.draw.SameButFlag t.draw := by
  obtain ⟨q, _, rfl, h⟩ := h
  unfold State.draw
  cases hs : s.script with
  | nil =>
    rw [hs, List.forall₂_nil_left_iff] at h
    subst h
    exact .same _
  | cons d _ =>
    rw [hs, List.forall₂_cons_left_iff] at h
    obtain ⟨d', _, hd, -, rfl⟩ := h
    cases hd with
    | same => exact .same _
    | flag d0 d1 => exact .flag d0 d1

theorem ButFlag.popDraw (h : ButFlag s t) : ButFlag s.popDraw t.popDraw := by
  obtain ⟨q, es, rfl, h⟩ := h
  refine ⟨q.tail, es, rfl, ?_⟩
  rw [popDraw_script]
  generalize s.script = l at h
  cases h with
  | nil => exact .nil
  | cons _ htail => exact htail

theorem ButFlag.startOp (h : ButFlag s t) : ButFlag s.startOp t.startOp := by
  obtain ⟨q, _, rfl, h⟩ := h
  exact ⟨q, _, rfl, h⟩

theorem ButFlag.record (h : ButFlag s t) (e e' : Event) : ButFlag (s.record e) (t.record e') := by
  obtain ⟨q, _, rfl, h⟩ := h
  exact ⟨q, _, rfl, h⟩

theorem ButFlag.enter (h : ButFlag s t) (q : SeqState) : ButFlag (s.enter q) (t.enter q) := by
  obtain ⟨p, es, rfl, h⟩ := h
  exact ⟨p, es, rfl, h⟩

theorem ButFlag.wait (h : ButFlag s t) (p : Pending) :
    ButFlag { s with pending := some p } { t with pending := some p } := by
  obtain ⟨q, es, rfl, h⟩ := h
  exact ⟨q, es, rfl, h⟩

theorem ButFlag.stopTimer (h : ButFlag s t) : ButFlag { s with tmr := 0 } { t with tmr := 0 } := by
  obtain ⟨q, es, rfl, h⟩ := h
  exact ⟨q, es, rfl, h⟩

theorem ButFlag.stop (h : ButFlag s t) :
    ButFlag { s with seq := .idle, tmr := 0 } { t with seq := .idle, tmr := 0 } := by
  obtain ⟨q, es, rfl, h⟩ := h
  exact ⟨q, es, rfl, h⟩

theorem ButFlag.cutShort (h : ButFlag s t) : ButFlag s.cutShort t.cutShort := by
  obtain ⟨q, es, hpop, h⟩ := h.popDraw
  refine ⟨q, es, ?_, h⟩
  rw [State.cutShort, hpop]
  rfl

theorem ButFlag.respond (h : ButFlag s t) (st : Status) (r : Result) :
    ButFlag (s.respond st r) (t.respond st r) := by
  have hends := h.draw.endsOperation
  rcases respond_cases s st r with ⟨hs, heq⟩ | ⟨hs, heq⟩ <;> rw [heq]
  · rw [respond_undisturbed st r (hends.trans hs)]
    obtain ⟨q, es, rfl, h⟩ := h
    exact ⟨q, es, rfl, h⟩
  · rw [respond_reset st r (hends.trans hs)]
    exact h.cutShort

theorem ButFlag.abort (h : ButFlag s t) (st : Status) (e : ErrVal) :
    ButFlag (s.abort st e) (t.abort st e) :=
  h.stop.respond st _

/-! ### The shared operations -/

/-- A transaction goes on with the same bytes in both runs, or with second bytes that differ in bit 0. -/
theorem transact_butFlag (h : ButFlag s t) {r : Request} {k k' : Byte → Byte → State → State}
    (hk : ∀ d0 d1 u v, ButFlag u v → ButFlag (k d0 d1 u) (k' d0 d1 v))
    (hflag : ∀ d0 d1 u v, ButFlag u v → ButFlag (k d0 d1 u) (k' d0 (d1 ^^^ 1#8) v)) :
    ButFlag (transact r s k) (transact r t k') := by
  have hdraw := h.draw
  generalize hs : s.draw = d, ht : t.draw = d' at hdraw
  cases hdraw with
  | flag d0 d1 =>
    rw [transact_ok hs, transact_ok ht]
    exact hflag _ _ _ _ (h.popDraw.record _ _)
  | same =>
    unfold transact
    rw [hs, ht]
    split
    · exact hk _ _ _ _ (h.popDraw.record _ _)
    · exact (h.popDraw.record _ _).abort _ _
    · exact (h.popDraw.record _ _).wait _
    · exact h.cutShort.record _ _
    · exact h.cutShort
    · exact h.cutShort

theorem cfgWr_butFlag (h : ButFlag s t) {b : Byte} {k k' : State → State}
    (hk : ∀ u v, ButFlag u v → ButFlag (k u) (k' v)) : ButFlag (cfgWr b s k) (cfgWr b t k') :=
  transact_butFlag h (fun _ _ => hk) fun _ _ => hk

theorem cfgRd_butFlag (h : ButFlag s t) {k k' : Byte → State → State}
    (hk : ∀ b u v, ButFlag u v → ButFlag (k b u) (k' b v)) : ButFlag (cfgRd s k) (cfgRd t k') :=
  transact_butFlag h (fun d0 _ => hk d0) fun d0 _ => hk d0

/-- The ratio drops the flag. -/
theorem ratioOf_flag (d0 d1 : Byte) : ratioOf (assembleRaw d0 (d1 ^^^ 1#8)) = ratioOf (assembleRaw d0 d1) := by
  have hhalf : ∀ d : Byte, (d ^^^ 1#8).toNat / 2 = d.toNat / 2 := by decide
  have hd1 := hhalf d1
  apply BitVec.eq_of_toNat_eq
  simp only [ratioOf_toNat, assembleRaw_toNat]
  omega

theorem readBackStep_butFlag (h : ButFlag s t) {k k' : Ratio → State → State}
    (hk : ∀ ratio u v, ButFlag u v → ButFlag (k ratio u) (k' ratio v)) :
    ButFlag (readBackStep s k) (readBackStep t k') :=
  transact_butFlag (h.enter _) (fun _ _ => hk _) fun d0 d1 u v h => by
    simpa only [ratioOf_flag] using hk _ u v h

theorem delay_butFlag (h : ButFlag s t) {d : DelayKind} {k k' : State → State}
    (hk : ∀ u v, ButFlag u v → ButFlag (k u) (k' v)) : ButFlag (delay d s k) (delay d t k') := by
  have hdraw := h.draw
  have hgo := hk _ _ (h.record (.delay d) (.delay d)).stopTimer
  generalize hs : s.draw = x, ht : t.draw = x' at hdraw
  cases hdraw with
  | flag => rwa [delay_undisturbed (hs ▸ rfl), delay_undisturbed (ht ▸ rfl)]
  | same =>
    unfold delay
    rw [hs, ht, delayTimer_eq_zero]
    split
    · exact hgo
    · exact hgo
    · exact h.cutShort.record _ _
    · exact h.cutShort
    · exact h.cutShort

theorem biasStep_butFlag (h : ButFlag s t) {c : Configuration} {k k' : State → State}
    (hk : ∀ u v, ButFlag u v → ButFlag (k u) (k' v)) : ButFlag (biasStep c s k) (biasStep c t k') := by
  unfold biasStep
  split
  · exact cfgWr_butFlag (h.enter _) fun _ _ h => delay_butFlag h hk
  · exact hk _ _ (h.enter _)

theorem conversionStep_butFlag (h : ButFlag s t) {c : Configuration} {k k' : State → State}
    (hk : ∀ u v, ButFlag u v → ButFlag (k u) (k' v)) :
    ButFlag (conversionStep c s k) (conversionStep c t k') := by
  unfold conversionStep
  split
  · exact cfgRd_butFlag (h.enter _) fun _ _ _ h => cfgWr_butFlag h fun _ _ h => delay_butFlag h hk
  · exact hk _ _ (h.enter _)

theorem acquireRatio_butFlag (h : ButFlag s t) {k k' : Ratio → State → State}
    (hk : ∀ ratio u v, ButFlag u v → ButFlag (k ratio u) (k' ratio v)) :
    ButFlag (acquireRatio s k) (acquireRatio t k') := by
  obtain ⟨-, hcfg, -⟩ := h.reads
  unfold acquireRatio
  rw [hcfg]
  exact biasStep_butFlag h fun _ _ h => conversionStep_butFlag h fun _ _ h =>
    readBackStep_butFlag h fun ratio _ _ h => cfgWr_butFlag (h.enter _) fun _ _ h => hk ratio _ _ (h.enter _)

theorem needUp_butFlag (h : ButFlag s t) {k k' : State → State}
    (hk : ∀ u v, ButFlag u v → ButFlag (k u) (k' v)) : ButFlag (needUp s k) (needUp t k') := by
  obtain ⟨hlife, -⟩ := h.reads
  unfold needUp
  rw [hlife]
  split
  · exact hk _ _ h.startOp
  · exact h.startOp.respond _ _

end ButFlag

/-- GETRAW and GETTEMP answer the same in both runs. -/
theorem acquisition_butFlag {i : Instr} (hi : i = .getRaw ∨ i = .getTemp) {s t : State} (h : ButFlag s t) :
    ∃ u v, exec i s = .next u ∧ exec i t = .next v ∧ ButFlag u v := by
  rcases hi with rfl | rfl <;>
    refine ⟨_, _, rfl, rfl, needUp_butFlag h fun _ _ h => acquireRatio_butFlag h fun _ _ _ h => ?_⟩
  · exact h.respond _ _
  · obtain ⟨-, -, hparams, hrref, hrnom⟩ := h.reads
    rw [hparams, hrref, hrnom]
    exact h.respond _ _

/-- Settles O20: the two runs go side by side, whichever of the inputs it is in which the flag differs. -/
theorem faultFlagIsDiscarded : Obligations.FaultFlagIsDiscarded := by
  intro i s before after d0 d1 hi _ t t' ht ht'
  have hsame : ∀ l : List Draw, List.Forall₂ Draw.SameButFlag l l :=
    fun _ => List.forall₂_same.2 fun d _ => .same d
  have hscripts : List.Forall₂ Draw.SameButFlag (before ++ .answer (.ok d0 d1) :: after)
      (before ++ .answer (.ok d0 (d1 ^^^ 1#8)) :: after) :=
    List.rel_append (hsame before) (.cons (.flag d0 d1) (hsame after))
  obtain ⟨u, v, hu, hv, h⟩ := acquisition_butFlag hi (s := { s with script := _ }) ⟨_, _, rfl, hscripts⟩
  cases hu.symm.trans ht
  cases hv.symm.trans ht'
  exact h.outcome

/-! ## How an operation ends (R62, R170, R178)

`calm` stands for the premise that the inputs to come are answers. An operation in progress is followed together with
the number of inputs that are then still known to be answers. -/

/-- The next `n` inputs are answers. -/
def State.Answered (s : State) (n : Nat) : Prop := ∀ k < n, ∃ r, s.upcoming k = .answer r

/-- The operation has ended with a response, and nothing is outstanding. -/
def Responded (t : State) : Prop := t.resp.isSome = true ∧ t.pending = none ∧ t.resetPin = false

/-- The operation waits for the answer to its last event. -/
def Waits (t : State) : Prop :=
  t.resp = none ∧ t.resetPin = false ∧ ∃ before,
    (∃ r, t.events = before ++ [.txn r .unanswered] ∧ t.pending = some (.txn r)) ∨
    (t.events = before ++ [.acquire .unanswered] ∧ t.pending = some .acquire)

/-- The operation has ended in one of the three ways, and if `calm` holds with a response. -/
def Ends (calm : Prop) (t : State) : Prop :=
  (Responded t ∨ Waits t ∨ (t.AtReset ∧ t.resetPin = true)) ∧ (calm → t.resp.isSome = true)

/-- The operation goes on: nothing stands on its ports, and if `calm` holds the next `n` inputs are answers. -/
def GoesOn (calm : Prop) (n : Nat) (s : State) : Prop :=
  s.resp = none ∧ s.pending = none ∧ s.resetPin = false ∧ (calm → s.Answered n)

section Ends

variable {calm : Prop} {n : Nat} {s : State}

theorem GoesOn.mono {m : Nat} (hs : GoesOn calm n s) (hm : m ≤ n) : GoesOn calm m s := by
  obtain ⟨hresp, hpending, hpin, hcalm⟩ := hs
  exact ⟨hresp, hpending, hpin, fun h k hk => hcalm h k (hk.trans_le hm)⟩

theorem GoesOn.not_calm (hs : GoesOn calm (n + 1) s) (hdraw : ∀ r, s.draw ≠ .answer r) : ¬ calm := by
  obtain ⟨-, -, -, hcalm⟩ := hs
  intro h
  obtain ⟨r, hr⟩ := hcalm h 0 (Nat.succ_pos n)
  exact hdraw r hr

/-- An update that leaves the ports and the inputs lets the operation go on. -/
theorem GoesOn.congr {t : State} (hs : GoesOn calm n s)
    (hports : (t.resp, t.pending, t.resetPin) = (s.resp, s.pending, s.resetPin))
    (hinputs : (t.params, t.script, t.draws) = (s.params, s.script, s.draws)) : GoesOn calm n t := by
  obtain ⟨hresp, hpending, hpin, hcalm⟩ := hs
  simp only [Prod.mk.injEq] at hports hinputs
  obtain ⟨hparams, hscript, hdraws⟩ := hinputs
  refine ⟨hports.1.trans hresp, hports.2.1.trans hpending, hports.2.2.trans hpin, fun h k hk => ?_⟩
  rw [upcoming_congr k hparams hscript hdraws]
  exact hcalm h k hk

/-- An event takes one input. -/
theorem GoesOn.event (hs : GoesOn calm (n + 1) s) (e : Event) : GoesOn calm n (s.popDraw.record e) := by
  obtain ⟨hresp, hpending, hpin, hcalm⟩ := hs
  have hpop : GoesOn calm n s.popDraw :=
    ⟨hresp, hpending, hpin, fun h k hk => hcalm h (k + 1) (Nat.succ_lt_succ hk)⟩
  exact hpop.congr rfl rfl

/-- A reset ends the operation where not all inputs are answers. -/
theorem ends_of_reset {t : State} (hreset : t.AtReset) (hpin : t.resetPin = true) (hcalm : ¬ calm) :
    Ends calm t :=
  ⟨.inr (.inr ⟨hreset, hpin⟩), fun h => absurd h hcalm⟩

theorem ends_of_waits {t : State} (hwaits : Waits t) (hcalm : ¬ calm) : Ends calm t :=
  ⟨.inr (.inl hwaits), fun h => absurd h hcalm⟩

theorem respond_ends (hs : GoesOn calm (n + 1) s) (st : Status) (r : Result) : Ends calm (s.respond st r) := by
  rcases respond_cases s st r with ⟨-, heq⟩ | ⟨hends, heq⟩ <;> rw [heq]
  · obtain ⟨-, hpending, hpin, -⟩ := hs
    exact ⟨.inl ⟨rfl, hpending, hpin⟩, fun _ => rfl⟩
  · exact ends_of_reset (cutShort_atReset s) rfl (hs.not_calm fun _ hr => by simp [hr, Draw.endsOperation] at hends)

theorem abort_ends (hs : GoesOn calm (n + 1) s) (st : Status) (e : ErrVal) : Ends calm (s.abort st e) :=
  respond_ends (s := { s with seq := .idle, tmr := 0 }) (hs.congr rfl rfl) st _

/-! ### The shared operations: each takes an input, and leaves one for the response -/

theorem transact_ends (hs : GoesOn calm (n + 2) s) {r : Request} {k : Byte → Byte → State → State}
    (hk : ∀ d0 d1 u, GoesOn calm (n + 1) u → Ends calm (k d0 d1 u)) : Ends calm (transact r s k) := by
  unfold transact
  split
  · exact hk _ _ _ (hs.event _)
  · exact abort_ends (hs.event _) _ _
  · next h =>
    obtain ⟨hresp, -, hpin, -⟩ := hs.event (.txn r .unanswered)
    exact ends_of_waits ⟨hresp, hpin, s.events, .inl ⟨r, rfl, rfl⟩⟩ (hs.not_calm (by simp [h]))
  all_goals
    next h => exact ends_of_reset (cutShort_atReset s) rfl (hs.not_calm (by simp [h]))

theorem busAcquire_ends (hs : GoesOn calm (n + 2) s) {k : State → State}
    (hk : ∀ u, GoesOn calm (n + 1) u → Ends calm (k u)) : Ends calm (busAcquire s k) := by
  unfold busAcquire
  split
  · exact hk _ (hs.event _)
  · next e _ =>
    exact abort_ends (s := { s.popDraw.record (.acquire (.err e)) with life := .dead })
      ((hs.event (.acquire (.err e))).congr rfl rfl) _ _
  · next h =>
    obtain ⟨hresp, -, hpin, -⟩ := hs.event (.acquire .unanswered)
    exact ends_of_waits ⟨hresp, hpin, s.events, .inr ⟨rfl, rfl⟩⟩ (hs.not_calm (by simp [h]))
  all_goals
    next h => exact ends_of_reset (cutShort_atReset s) rfl (hs.not_calm (by simp [h]))

theorem busRelease_ends (hs : GoesOn calm (n + 2) s) {k : State → State}
    (hk : ∀ u, GoesOn calm (n + 1) u → Ends calm (k u)) : Ends calm (busRelease s k) := by
  unfold busRelease
  split
  · exact hk _ (hs.event _)
  · exact hk _ (hs.event _)
  · exact hk _ (hs.event _)
  all_goals
    next h => exact ends_of_reset (cutShort_atReset s) rfl (hs.not_calm (by simp [h]))

/-- A delay takes no input. -/
theorem delay_ends (hs : GoesOn calm (n + 1) s) {d : DelayKind} {k : State → State}
    (hk : ∀ u, GoesOn calm (n + 1) u → Ends calm (k u)) : Ends calm (delay d s k) := by
  unfold delay
  split
  · exact hk _ (hs.congr rfl rfl)
  · exact hk _ (hs.congr rfl rfl)
  all_goals
    next h => exact ends_of_reset (cutShort_atReset s) rfl (hs.not_calm (by simp [h]))

theorem biasStep_ends (hs : GoesOn calm (n + 2) s) {c : Configuration} {k : State → State}
    (hk : ∀ u, GoesOn calm (n + 1) u → Ends calm (k u)) : Ends calm (biasStep c s k) := by
  have henter : GoesOn calm (n + 2) (s.enter .biasWarmup) := hs.congr rfl rfl
  unfold biasStep
  split
  · exact transact_ends henter fun _ _ _ h => delay_ends h hk
  · exact hk _ (henter.mono (by omega))

theorem conversionStep_ends (hs : GoesOn calm (n + 3) s) {c : Configuration} {k : State → State}
    (hk : ∀ u, GoesOn calm (n + 1) u → Ends calm (k u)) : Ends calm (conversionStep c s k) := by
  have henter : GoesOn calm (n + 3) (s.enter .conversionPending) := hs.congr rfl rfl
  unfold conversionStep
  split
  · exact transact_ends henter fun _ _ _ h => transact_ends h fun _ _ _ h => delay_ends h hk
  · exact hk _ (henter.mono (by omega))

/-- An acquisition takes five inputs at most. -/
theorem acquireRatio_ends (hs : GoesOn calm 6 s) {k : Ratio → State → State}
    (hk : ∀ ratio u, GoesOn calm 1 u → Ends calm (k ratio u)) : Ends calm (acquireRatio s k) :=
  biasStep_ends hs fun _ h => conversionStep_ends h fun u h =>
    transact_ends (s := u.enter .readBack) (h.congr rfl rfl) fun d0 d1 v h =>
      transact_ends (s := v.enter .restore) (h.congr rfl rfl) fun _ _ w h =>
        hk (ratioOf (assembleRaw d0 d1)) (w.enter .idle) (h.congr rfl rfl)

end Ends

/-- Every operation ends in one of the three ways, and takes five inputs before its response at most. -/
theorem operation_ends {calm : Prop} {i : Instr} (hi : i.isOperation = true) {s : State}
    (hs : GoesOn calm 6 s.startOp) : Leaves i s (Ends calm) := by
  have hrefuse : Ends calm (s.startOp.respond .notReady .none) := respond_ends hs _ _
  have htorn : ∀ {n u}, GoesOn calm (n + 1) u → Ends calm (tornDown u) := fun {_ u} h =>
    respond_ends (s := { u with life := .down }) (h.congr rfl rfl) _ _
  cases i with
  | encode | decode | solve | resist | cvd | poly => exact ⟨_, rfl, respond_ends hs _ _⟩
  | beginOp c x y =>
    exact ⟨_, rfl, needDown_cases s _ (fun _ => busAcquire_ends hs fun u h =>
      transact_ends (s := u.bringUp c x y) (h.congr rfl rfl) fun _ _ _ h => respond_ends h _ _) fun _ => hrefuse⟩
  | endOp =>
    refine ⟨_, rfl, ?_⟩
    split
    · exact busRelease_ends hs fun _ => htorn
    · exact htorn hs
  | setConfig c =>
    exact ⟨_, rfl, needUp_cases s _ (fun _ => transact_ends (s := { s.startOp with cfg := c }) (hs.congr rfl rfl)
      fun _ _ _ h => respond_ends h _ _) fun _ => hrefuse⟩
  | getConfig | readFault =>
    exact ⟨_, rfl, needUp_cases s _ (fun _ => transact_ends hs fun _ _ _ h => respond_ends h _ _)
      fun _ => hrefuse⟩
  | clearFault =>
    exact ⟨_, rfl, needUp_cases s _ (fun _ => transact_ends hs fun _ _ _ h => transact_ends h fun _ _ _ h =>
      respond_ends h _ _) fun _ => hrefuse⟩
  | getRaw | getTemp =>
    exact ⟨_, rfl, needUp_cases s _ (fun _ => acquireRatio_ends hs fun _ _ h => respond_ends h _ _)
      fun _ => hrefuse⟩
  | _ => cases hi

/-- Settles O35: the operation begins with nothing on its ports. -/
theorem operationsRespondUnlessUnanswered : Obligations.OperationsRespondUnlessUnanswered := by
  intro i s t hi hpending hpin ht
  have hs : GoesOn (s.Answered 6) 6 s.startOp := by
    refine ⟨rfl, hpending, hpin, fun h k hk => ?_⟩
    have hupcoming : s.startOp.upcoming k = s.upcoming k := upcoming_congr k rfl rfl rfl
    exact hupcoming ▸ h k hk
  exact (operation_ends hi hs).of_exec ht

end Sys2Proof.Machine

/-! PROOF. Family 40_config_codec: what ENCODE answers (O9), what DECODE answers (O10), the round trips of the codec
(O11), and that the operations that compute on operands depend on them alone (O13). -/

namespace Sys2Proof

/-! ## A field and the bits it is read from (R11, R51) -/

@[simp] theorem WireCount.ofBit_eq_three {b : Bool} : WireCount.ofBit b = .three ↔ b = true := by
  cases b <;> decide

@[simp] theorem MainsFilter.ofBit_eq_hz50 {b : Bool} : MainsFilter.ofBit b = .hz50 ↔ b = true := by
  cases b <;> decide

/-- The cycles 2 and 3 are those with the high bit (D18). -/
theorem FaultCycle.ofBits_high {hi lo : Bool} :
    FaultCycle.ofBits hi lo = .runManual ∨ FaultCycle.ofBits hi lo = .finishManual ↔ hi = true := by
  cases hi <;> cases lo <;> decide

/-- The cycles 1 and 3 are those with the low bit (D18). -/
theorem FaultCycle.ofBits_low {hi lo : Bool} :
    FaultCycle.ofBits hi lo = .automatic ∨ FaultCycle.ofBits hi lo = .finishManual ↔ lo = true := by
  cases hi <;> cases lo <;> decide

/-! ## The bits of the byte of a Configuration (R70)

Each is a field of the Configuration that is read back from the byte, which is `c` itself. -/

theorem encodeConfig_bit7 (c : Configuration) : (encodeConfig c).getLsbD 7 = c.vbias :=
  congrArg Configuration.vbias (configOfEncoded_encodeConfig c)

theorem encodeConfig_bit6 (c : Configuration) : (encodeConfig c).getLsbD 6 = c.auto :=
  congrArg Configuration.auto (configOfEncoded_encodeConfig c)

theorem encodeConfig_bit4 (c : Configuration) : (encodeConfig c).getLsbD 4 = decide (c.wire = .three) := by
  have hwire : WireCount.ofBit _ = c.wire := congrArg Configuration.wire (configOfEncoded_encodeConfig c)
  simp [← hwire]

theorem ofBits_encodeConfig (c : Configuration) :
    FaultCycle.ofBits ((encodeConfig c).getLsbD 3) ((encodeConfig c).getLsbD 2) = c.fdc :=
  congrArg Configuration.fdc (configOfEncoded_encodeConfig c)

theorem encodeConfig_bit3 (c : Configuration) :
    (encodeConfig c).getLsbD 3 = decide (c.fdc = .runManual ∨ c.fdc = .finishManual) := by
  simp [← ofBits_encodeConfig c, FaultCycle.ofBits_high]

theorem encodeConfig_bit2 (c : Configuration) :
    (encodeConfig c).getLsbD 2 = decide (c.fdc = .automatic ∨ c.fdc = .finishManual) := by
  simp [← ofBits_encodeConfig c, FaultCycle.ofBits_low]

theorem encodeConfig_bit0 (c : Configuration) : (encodeConfig c).getLsbD 0 = decide (c.filter = .hz50) := by
  have hfilter : MainsFilter.ofBit _ = c.filter :=
    congrArg Configuration.filter (configOfEncoded_encodeConfig c)
  simp [← hfilter]

/-- A bit of the mask 0x22 is clear in the byte (R64). -/
theorem encodeConfig_writeOnly_bit (c : Configuration) {j : Nat} (hj : (0x22#8).getLsbD j = true) :
    (encodeConfig c).getLsbD j = false := by
  have hbit := congrArg (BitVec.getLsbD · j) (encodeConfig_and_writeOnly c)
  simpa only [BitVec.getLsbD_and, hj, Bool.and_true, BitVec.getLsbD_zero] using hbit

/-! ## The two directions of the codec (R72) -/

theorem encodeConfig_injective : Function.Injective encodeConfig :=
  Function.LeftInverse.injective configOfEncoded_encodeConfig

/-- The encoder reaches the bytes without write-only bits. -/
theorem exists_encodeConfig_eq_iff (b : Byte) : b &&& 0x22#8 = 0#8 ↔ ∃ c, encodeConfig c = b := by
  constructor
  · exact fun h => ⟨configOfEncoded b, encodeConfig_configOfEncoded h⟩
  · rintro ⟨c, rfl⟩
    exact encodeConfig_and_writeOnly c

/-- DECODE reads what stands in the byte with bits 5, 3 and 1 cleared. -/
theorem configOfEncoded_and_mask (b : Byte) : configOfEncoded (b &&& 0xD5#8) = decodeConfig b := by
  simp [configOfEncoded, decodeConfig]

theorem encodeConfig_decodeConfig (b : Byte) : encodeConfig (decodeConfig b) = b &&& 0xD5#8 := by
  have hclear : b &&& 0xD5#8 &&& 0x22#8 = 0#8 := by
    rw [BitVec.and_assoc]
    exact BitVec.and_zero
  rw [← configOfEncoded_and_mask, encodeConfig_configOfEncoded hclear]

/-- DECODE gives back the Configuration, but of its fault-detection cycle the low bit only. -/
theorem decodeConfig_encodeConfig (c : Configuration) :
    decodeConfig (encodeConfig c) =
      { c with fdc := .ofBits false (decide (c.fdc = .automatic ∨ c.fdc = .finishManual)) } :=
  calc decodeConfig (encodeConfig c)
    _ = { configOfEncoded (encodeConfig c) with fdc := .ofBits false ((encodeConfig c).getLsbD 2) } := rfl
    _ = _ := by rw [configOfEncoded_encodeConfig, encodeConfig_bit2]

/-- Settles O11: the low bit of each of the four cycles, and the byte that DECODE reads. -/
theorem codecRoundTrips : Obligations.CodecRoundTrips := by
  refine ⟨fun c => ?_, encodeConfig_decodeConfig⟩
  rw [decodeConfig_encodeConfig]
  cases c.fdc <;> rfl

/-! ## The word of ENCODE (R57, R52) -/

/-- With OP 0 the command word is its IMM. -/
theorem cmdWord_zero_toNat (imm : BitVec 16) : (cmdWord 0#4 imm).toNat = imm.toNat :=
  calc (cmdWord 0#4 imm).toNat
    _ = (0#4 ++ 0#12).toNat <<< 16 ||| imm.toNat := BitVec.toNat_append _ imm
    _ = imm.toNat := Nat.zero_or _

theorem decode_packCfg6 (c : Configuration) (fa fb : Flt) :
    decode (.cmd ((packCfg6 c).zeroExtend 32) fa fb) = .ok (.encode c) := by
  have hword : (packCfg6 c).zeroExtend 32 = cmdWord 0#4 ((packCfg6 c).zeroExtend 16) := by
    apply BitVec.eq_of_toNat_eq
    rw [cmdWord_zero_toNat, BitVec.toNat_setWidth_of_le (by decide), BitVec.toNat_setWidth_of_le (by decide)]
  rw [hword]
  simp [decode, decodeCmd, withImm_setWidth, extractLsb'_setWidth_imm]

end Sys2Proof

namespace Sys2Proof.Machine

/-! ## The operations that compute on operands (R73) -/

/-- What a pure operation answers, at a configuration of the block. -/
def pureResult (p : Params) : Instr → Result
  | .encode c => .byte (encodeConfig c)
  | .decode b => .config (decodeConfig b)
  | .solve ratio rref rnom => .float (solveOn p ratio rref rnom)
  | .resist ratio rref => .float (resistOn p ratio rref)
  | .cvd rrtd rnom => .float (cvdOn p rrtd rnom)
  | .poly rrtd rnom => .float (polyOn p rrtd rnom)
  | _ => .none

/-- A pure operation answers at once, and leaves everything else as it was. -/
theorem exec_pure_undisturbed {i : Instr} (hi : i.isPure = true) {s : State} (h : s.undisturbed 0) :
    exec i s = .next (s.ended .ok (pureResult s.params i) [] [] 0) := by
  have hanswer (r : Result) : s.startOp.returnOk r = s.ended .ok r [] [] 0 :=
    startOp_respond_undisturbed .ok r h
  cases i with
  | encode | decode | solve | resist | cvd | poly => exact congrArg Host.Outcome.next (hanswer _)
  | _ => cases hi

/-- Settles O9: the byte is `encodeConfig c`. -/
theorem encodeAnswersTheConfigurationByte : Obligations.EncodeAnswersTheConfigurationByte := by
  refine ⟨decode_packCfg6, fun c s h => ⟨encodeConfig c, exec_pure_undisturbed rfl h, ?_⟩,
    fun _ _ heq => encodeConfig_injective heq, exists_encodeConfig_eq_iff⟩
  exact ⟨encodeConfig_bit7 c, encodeConfig_bit6 c, encodeConfig_writeOnly_bit c rfl, encodeConfig_bit4 c,
    encodeConfig_bit3 c, encodeConfig_bit2 c, encodeConfig_writeOnly_bit c rfl, encodeConfig_bit0 c⟩

/-- Settles O10: the Configuration is `decodeConfig b`. -/
theorem decodeAnswersTheFiveFields : Obligations.DecodeAnswersTheFiveFields := by
  intro b s h
  have hfdc : (decodeConfig b).fdc = if b.getLsbD 2 then .automatic else .noAction := by
    change FaultCycle.ofBits false (b.getLsbD 2) = _
    cases b.getLsbD 2 <;> rfl
  exact ⟨decodeConfig b, exec_pure_undisturbed rfl h, rfl, rfl, WireCount.ofBit_eq_three, hfdc,
    MainsFilter.ofBit_eq_hz50⟩

/-- Settles O13: the result is `pureResult`, which for ENCODE and DECODE does not look at the configuration. -/
theorem pureOperationsDependOnOperandsOnly : Obligations.PureOperationsDependOnOperandsOnly := by
  constructor
  · intro i hi p
    refine ⟨pureResult p i, ?_⟩
    rintro s rfl h
    exact exec_pure_undisturbed hi h
  · rintro i (⟨c, rfl⟩ | ⟨b, rfl⟩)
    · exact ⟨.byte (encodeConfig c), fun _ h => exec_pure_undisturbed rfl h⟩
    · exact ⟨.config (decodeConfig b), fun _ h => exec_pure_undisturbed rfl h⟩

end Sys2Proof.Machine

/-! PROOF. Family 41_register_transport: a transaction run alone delivers what the chip returned (O30), and no
instruction issues another request than the four (O45). -/

namespace Sys2Proof.Machine

/-! ## A transaction run alone (R81 to R84) -/

/-- A row run alone that delivers after one event. -/
theorem startOp_event_deliver (s : State) (e : Event) (m : MicroOut) :
    (s.startOp.popDraw.record e).deliver m = s.delivered m [e] 1 := by
  simp [State.startOp, State.popDraw, State.record, State.deliver, State.delivered]

/-- The two bytes of the raw read make the number of R39. -/
theorem assembleRaw_eq_ofNat (d0 d1 : Byte) :
    assembleRaw d0 d1 = BitVec.ofNat 16 (d0.toNat * 256 + d1.toNat) := by
  rw [← assembleRaw_toNat, BitVec.ofNat_toNat, BitVec.setWidth_eq]

/-- Settles O30: a row that is answered with success delivers after its one event. -/
theorem transactionRowsComplete : Obligations.TransactionRowsComplete := by
  intro s d0 d1 h
  have hdraw : s.startOp.draw = .answer (.ok d0 d1) := h
  refine ⟨fun b => ?_, ?_, ?_, ?_⟩
  · exact congrArg _ ((cfgWr_ok hdraw).trans (startOp_event_deliver s _ _))
  · exact congrArg _ ((cfgRd_ok hdraw).trans (startOp_event_deliver s _ _))
  · rw [← assembleRaw_eq_ofNat]
    exact congrArg _ ((rtdRd_ok hdraw).trans (startOp_event_deliver s _ _))
  · exact congrArg _ ((faultRd_ok hdraw).trans (startOp_event_deliver s _ _))

/-! ## The requests that an instruction may issue (R84, R85) -/

/-- The requests that the history of `i` may hold: the four shapes, and the fault-status read only where `i` is
READFAULT or that row run alone. -/
def MayIssue (i : Instr) (r : Request) : Prop :=
  r.isOwn ∧ (r = Request.read Config.addrFault 1 → i = .readFault ∨ i = .faultRd)

/-- A read request names its register and its number of bytes. -/
theorem Request.read_inj {a a' : RegIndex} {n n' : Nat} :
    Request.read a n = Request.read a' n' ↔ a = a' ∧ n = n' := by
  simp [Request.read, readAddrByte_inj]

theorem mayIssue_cfgWr (i : Instr) (b : Byte) : MayIssue i (Request.write Config.addrConfig b) :=
  ⟨.inl ⟨b, rfl⟩, fun h => nomatch congrArg Request.dir h⟩

theorem mayIssue_cfgRd (i : Instr) : MayIssue i (Request.read Config.addrConfig 1) := by
  obtain ⟨-, hne, -⟩ := registerAddressesAreDistinct
  exact ⟨.inr (.inl rfl), fun h => absurd (Request.read_inj.1 h).1 hne⟩

theorem mayIssue_rtdRd (i : Instr) : MayIssue i (Request.read Config.addrRtd 2) :=
  ⟨.inr (.inr (.inl rfl)), fun h => nomatch (Request.read_inj.1 h).2⟩

theorem mayIssue_faultRd {i : Instr} (hi : i = .readFault ∨ i = .faultRd) :
    MayIssue i (Request.read Config.addrFault 1) :=
  ⟨.inr (.inr (.inr rfl)), fun _ => hi⟩

/-- Every request in the history is one that `i` may issue. It speaks of the history alone: an update of another
field keeps it. -/
def IssuedBy (i : Instr) (s : State) : Prop := ∀ ev ∈ s.events, ∀ r, ev.request = some r → MayIssue i r

/-! ### Each shared operation issues what it may -/

section Issued

variable {i : Instr} {s : State}

theorem issuedBy_startOp (i : Instr) (s : State) : IssuedBy i s.startOp := fun _ hev => nomatch hev

theorem issuedBy_respond (hs : IssuedBy i s) (st : Status) (r : Result) : IssuedBy i (s.respond st r) := by
  rwa [IssuedBy, respond_events]

theorem issuedBy_abort (hs : IssuedBy i s) (st : Status) (e : ErrVal) : IssuedBy i (s.abort st e) :=
  issuedBy_respond (s := { s with seq := .idle, tmr := 0 }) hs st _

/-- An event joins the history if its request, where it has one, may be issued. -/
theorem issuedBy_record (hs : IssuedBy i s) {e : Event} (he : ∀ r, e.request = some r → MayIssue i r) :
    IssuedBy i (s.record e) := by
  intro ev hev
  rcases List.mem_append.1 hev with hold | hnew
  · exact hs ev hold
  · exact List.mem_singleton.1 hnew ▸ he

theorem transact_issuedBy (hs : IssuedBy i s) {r : Request} (hr : MayIssue i r)
    {k : Byte → Byte → State → State} (hk : ∀ d0 d1 u, IssuedBy i u → IssuedBy i (k d0 d1 u)) :
    IssuedBy i (transact r s k) :=
  have htxn (u : State) (hu : IssuedBy i u) (o : BusOutcome) : IssuedBy i (u.record (.txn r o)) :=
    issuedBy_record hu fun _ h => Option.some.inj h ▸ hr
  transact_cases r s k
    (hok := fun _ _ _ => hk _ _ _ (htxn s.popDraw hs _))
    (herr := fun _ _ => issuedBy_abort (htxn s.popDraw hs _) _ _)
    (hsilent := fun _ => htxn s.popDraw hs _)
    (hinside := htxn s.cutShort hs _)
    (hbefore := hs)

theorem faultRd_issuedBy (hs : IssuedBy i s) (hi : i = .readFault ∨ i = .faultRd) {k : Byte → State → State}
    (hk : ∀ b u, IssuedBy i u → IssuedBy i (k b u)) : IssuedBy i (faultRd s k) :=
  transact_issuedBy hs (mayIssue_faultRd hi) fun d0 _ => hk d0

theorem cfgWr_issuedBy (hs : IssuedBy i s) {b : Byte} {k : State → State}
    (hk : ∀ u, IssuedBy i u → IssuedBy i (k u)) : IssuedBy i (cfgWr b s k) :=
  transact_issuedBy hs (mayIssue_cfgWr i b) fun _ _ => hk

theorem cfgRd_issuedBy (hs : IssuedBy i s) {k : Byte → State → State}
    (hk : ∀ b u, IssuedBy i u → IssuedBy i (k b u)) : IssuedBy i (cfgRd s k) :=
  transact_issuedBy hs (mayIssue_cfgRd i) fun d0 _ => hk d0

theorem rtdRd_issuedBy (hs : IssuedBy i s) {k : Raw16 → State → State}
    (hk : ∀ w u, IssuedBy i u → IssuedBy i (k w u)) : IssuedBy i (rtdRd s k) :=
  transact_issuedBy hs (mayIssue_rtdRd i) fun d0 d1 => hk (assembleRaw d0 d1)

theorem busAcquire_issuedBy (hs : IssuedBy i s) {k : State → State}
    (hk : ∀ u, IssuedBy i u → IssuedBy i (k u)) : IssuedBy i (busAcquire s k) :=
  have hacquire (u : State) (hu : IssuedBy i u) (o : BusOutcome) : IssuedBy i (u.record (.acquire o)) :=
    issuedBy_record hu nofun
  busAcquire_cases s k
    (hok := hk _ (hacquire s.popDraw hs _))
    (herr := fun e _ => issuedBy_abort (s := { s.popDraw.record (.acquire (.err e)) with life := .dead })
      (hacquire s.popDraw hs _) _ _)
    (hsilent := hacquire s.popDraw hs _)
    (hinside := hacquire s.cutShort hs _)
    (hbefore := hs)

theorem busRelease_issuedBy (hs : IssuedBy i s) {k : State → State}
    (hk : ∀ u, IssuedBy i u → IssuedBy i (k u)) : IssuedBy i (busRelease s k) :=
  busRelease_cases s k
    (hgo := fun _ _ => hk _ (issuedBy_record (s := s.popDraw) hs nofun))
    (hinside := issuedBy_record (s := s.cutShort) hs nofun)
    (hbefore := hs)

theorem delay_issuedBy (hs : IssuedBy i s) {d : DelayKind} {k : State → State}
    (hk : ∀ u, IssuedBy i u → IssuedBy i (k u)) : IssuedBy i (delay d s k) :=
  delay_cases d s k
    (hgo := fun _ => hk _ (issuedBy_record hs nofun))
    (hinside := issuedBy_record (s := s.cutShort) hs nofun)
    (hbefore := hs)

theorem biasStep_issuedBy (hs : IssuedBy i s) {c : Configuration} {k : State → State}
    (hk : ∀ u, IssuedBy i u → IssuedBy i (k u)) : IssuedBy i (biasStep c s k) := by
  unfold biasStep
  split
  · exact cfgWr_issuedBy (s := s.enter _) hs fun _ hu => delay_issuedBy hu hk
  · exact hk (s.enter _) hs

theorem conversionStep_issuedBy (hs : IssuedBy i s) {c : Configuration} {k : State → State}
    (hk : ∀ u, IssuedBy i u → IssuedBy i (k u)) : IssuedBy i (conversionStep c s k) := by
  unfold conversionStep
  split
  · exact cfgRd_issuedBy (s := s.enter _) hs fun _ _ hu => cfgWr_issuedBy hu fun _ hv => delay_issuedBy hv hk
  · exact hk (s.enter _) hs

/-- The acquisition writes and reads the configuration register, and reads the RTD register. -/
theorem acquireRatio_issuedBy (hs : IssuedBy i s) {k : Ratio → State → State}
    (hk : ∀ ratio u, IssuedBy i u → IssuedBy i (k ratio u)) : IssuedBy i (acquireRatio s k) :=
  biasStep_issuedBy hs fun _ h1 => conversionStep_issuedBy h1 fun u h2 =>
    rtdRd_issuedBy (s := u.enter .readBack) h2 fun w v h3 =>
      cfgWr_issuedBy (s := v.enter .restore) h3 fun x h4 => hk (ratioOf w) (x.enter .idle) h4

end Issued

/-! ### The instructions -/

/-- Every instruction issues what it may. -/
theorem exec_issuedBy (i : Instr) (s : State) : Leaves i s (IssuedBy i) := by
  have hs : IssuedBy i s.startOp := issuedBy_startOp i s
  have hanswer (st : Status) (r : Result) (u : State) (hu : IssuedBy i u) : IssuedBy i (u.respond st r) :=
    issuedBy_respond hu st r
  have hrefuse := hanswer .notReady .none s.startOp hs
  cases i with
  | encode | decode | solve | resist | cvd | poly | reservedE | reservedF => exact ⟨_, rfl, hanswer _ _ _ hs⟩
  | cfgByteEncode | cfgByteDecode | raw16 => exact ⟨_, rfl, hs⟩
  | beginOp c x y =>
    exact ⟨_, rfl, needDown_cases s _ (fun _ => busAcquire_issuedBy hs fun u hu =>
      cfgWr_issuedBy (s := u.bringUp c x y) hu (hanswer _ _)) fun _ => hrefuse⟩
  | endOp =>
    have htorn (u : State) (hu : IssuedBy .endOp u) : IssuedBy .endOp (tornDown u) :=
      hanswer _ _ { u with life := .down } hu
    refine ⟨_, rfl, ?_⟩
    split
    · exact busRelease_issuedBy hs htorn
    · exact htorn _ hs
  | setConfig c =>
    exact ⟨_, rfl, needUp_cases s _ (fun _ => cfgWr_issuedBy (s := { s.startOp with cfg := c }) hs (hanswer _ _))
      fun _ => hrefuse⟩
  | getConfig =>
    exact ⟨_, rfl, needUp_cases s _ (fun _ => cfgRd_issuedBy hs fun _ => hanswer _ _) fun _ => hrefuse⟩
  | clearFault =>
    exact ⟨_, rfl, needUp_cases s _ (fun _ => cfgRd_issuedBy hs fun _ _ hu => cfgWr_issuedBy hu (hanswer _ _))
      fun _ => hrefuse⟩
  | readFault =>
    exact ⟨_, rfl, needUp_cases s _ (fun _ => faultRd_issuedBy hs (.inl rfl) fun _ => hanswer _ _)
      fun _ => hrefuse⟩
  | getRaw | getTemp =>
    exact ⟨_, rfl, needUp_cases s _ (fun _ => acquireRatio_issuedBy hs fun _ _ => hanswer _ _ _)
      fun _ => hrefuse⟩
  | cfgWr => exact ⟨_, rfl, cfgWr_issuedBy hs fun _ hu => hu⟩
  | cfgRd => exact ⟨_, rfl, cfgRd_issuedBy hs fun _ _ hu => hu⟩
  | rtdRd => exact ⟨_, rfl, rtdRd_issuedBy hs fun _ _ hu => hu⟩
  | faultRd => exact ⟨_, rfl, faultRd_issuedBy hs (.inr rfl) fun _ _ hu => hu⟩

/-- Settles O45, since every instruction issues what it may. -/
theorem onlyTheFourTransactionsAreIssued : Obligations.OnlyTheFourTransactionsAreIssued := fun i s _ ht =>
  (exec_issuedBy i s).of_exec ht

end Sys2Proof.Machine

/-! PROOF. Family 42_acquisition: an acquisition as a plan known before it begins, and what running a plan can do;
from it the acquisition that succeeds (O14, O15), that fails (O17) and that a reset ends (O59), the place of its
delays (O19), and GETTEMP as GETRAW followed by the solver (O16). -/

namespace Sys2Proof.Machine

/-! ## Plans

The requests of an acquisition are known before it begins: of the answers one byte alone enters a later request, and
where that byte never comes, no later request does. So an acquisition is a list of steps, and what it can do is a
fact about lists of steps. -/

/-- A step of a plan: STATE moves, a request is issued, or a delay runs. -/
inductive PlanStep where
  | enter (q : SeqState)
  | request (r : Request)
  | wait (d : DelayKind)

/-- The event that `r` is, issued in the state `s`, if the next input is a success. -/
def answered (s : State) (r : Request) : Event := .txn r (.ok (r.delivered s.draw.bytes.1 s.draw.bytes.2))

/-- A step over the shared operations. -/
def PlanStep.run : PlanStep → State → (State → State) → State
  | .enter q, s, k => k (s.enter q)
  | .request r, s, k => transact r s fun _ _ => k
  | .wait d, s, k => delay d s k

/-- The state after a step that runs to its end. -/
def PlanStep.after : PlanStep → State → State
  | .enter q, s => s.enter q
  | .request r, s => s.popDraw.record (answered s r)
  | .wait d, s => { s.record (.delay d) with tmr := 0 }

/-- The events of a step that runs to its end. -/
def PlanStep.events : PlanStep → State → List Event
  | .enter _, _ => []
  | .request r, s => [answered s r]
  | .wait d, _ => [.delay d]

/-- The states that STATE enters in a step. -/
def PlanStep.walk : PlanStep → List SeqState
  | .enter q => [q]
  | .request _ => []
  | .wait _ => []

/-- The number of inputs that a step takes. -/
def PlanStep.requests : PlanStep → Nat
  | .enter _ => 0
  | .request _ => 1
  | .wait _ => 0

/-- The steps of a plan one after the other, as far as they run, and then `k`. -/
def runPlan : List PlanStep → State → (State → State) → State
  | [], s, k => k s
  | x :: p, s, k => x.run s fun u => runPlan p u k

/-- The state after a plan that runs to its end. -/
def afterPlan : List PlanStep → State → State
  | [], s => s
  | x :: p, s => afterPlan p (x.after s)

/-- The events of a plan that runs to its end. -/
def planEvents : List PlanStep → State → List Event
  | [], _ => []
  | x :: p, s => x.events s ++ planEvents p (x.after s)

/-- The states that STATE enters in a plan. -/
def planWalk (p : List PlanStep) : List SeqState := p.flatMap PlanStep.walk

/-- The number of inputs that a plan takes. -/
def planRequests (p : List PlanStep) : Nat := (p.map PlanStep.requests).sum

@[simp] theorem planWalk_nil : planWalk [] = [] := rfl
@[simp] theorem planWalk_cons (x : PlanStep) (p : List PlanStep) : planWalk (x :: p) = x.walk ++ planWalk p := rfl
@[simp] theorem planWalk_append (p p' : List PlanStep) : planWalk (p ++ p') = planWalk p ++ planWalk p' :=
  List.flatMap_append

@[simp] theorem planRequests_nil : planRequests [] = 0 := rfl
@[simp] theorem planRequests_cons (x : PlanStep) (p : List PlanStep) :
    planRequests (x :: p) = x.requests + planRequests p := rfl
@[simp] theorem planRequests_append (p p' : List PlanStep) :
    planRequests (p ++ p') = planRequests p + planRequests p' := by
  simp [planRequests]

theorem runPlan_append (p p' : List PlanStep) (s : State) (k : State → State) :
    runPlan (p ++ p') s k = runPlan p s fun u => runPlan p' u k := by
  induction p generalizing s with
  | nil => rfl
  | cons x p ih => simp only [List.cons_append, runPlan, ih]

theorem afterPlan_append (p p' : List PlanStep) (s : State) :
    afterPlan (p ++ p') s = afterPlan p' (afterPlan p s) := by
  induction p generalizing s with
  | nil => rfl
  | cons x p ih => exact ih _

theorem planEvents_append (p p' : List PlanStep) (s : State) :
    planEvents (p ++ p') s = planEvents p s ++ planEvents p' (afterPlan p s) := by
  induction p generalizing s with
  | nil => rfl
  | cons x p ih => simp [planEvents, afterPlan, ih]

/-! ### The state after a plan -/

/-- A plan moves STATE, TMR, the history, the walk and the inputs. -/
theorem afterPlan_eq (p : List PlanStep) (s : State) :
    afterPlan p s =
      { s with
        seq := (planWalk p).getLastD s.seq, tmr := (afterPlan p s).tmr, events := s.events ++ planEvents p s
        walk := s.walk ++ planWalk p, script := s.script.drop (planRequests p)
        draws := s.draws + planRequests p } := by
  induction p generalizing s with
  | nil => simp [afterPlan, planEvents]
  | cons x p ih =>
    rw [afterPlan, ih]
    cases x <;>
      simp [PlanStep.after, PlanStep.walk, PlanStep.requests, planEvents, PlanStep.events, State.enter,
        State.popDraw, State.record, List.getLast?_cons, Nat.add_assoc, Nat.add_comm 1]

/-- A delay is over when the next step begins. -/
theorem afterPlan_tmr (p : List PlanStep) {s : State} (h : s.tmr = 0) : (afterPlan p s).tmr = 0 := by
  induction p generalizing s with
  | nil => exact h
  | cons x p ih =>
    refine ih ?_
    cases x with
    | enter | request => exact h
    | wait => rfl

@[simp] theorem afterPlan_events (p : List PlanStep) (s : State) :
    (afterPlan p s).events = s.events ++ planEvents p s := by rw [afterPlan_eq]

@[simp] theorem afterPlan_resp (p : List PlanStep) (s : State) : (afterPlan p s).resp = s.resp := by
  rw [afterPlan_eq]

/-- Where `n` inputs have been taken, the inputs to come are those that followed them. -/
theorem upcoming_of_drop {s u : State} {n : Nat} (hparams : u.params = s.params)
    (hscript : u.script = s.script.drop n) (hdraws : u.draws = s.draws + n) (j : Nat) :
    u.upcoming j = s.upcoming (n + j) := by
  induction n generalizing s with
  | zero => rw [Nat.zero_add]; exact upcoming_congr j hparams hscript hdraws
  | succ n ih =>
    rw [Nat.add_right_comm, upcoming_succ]
    refine ih hparams ?_ ?_
    · simpa using hscript
    · rw [hdraws, popDraw_draws]; omega

/-- The inputs to come after a plan are those that the plan does not take. -/
theorem afterPlan_upcoming (p : List PlanStep) (s : State) (j : Nat) :
    (afterPlan p s).upcoming j = s.upcoming (planRequests p + j) := by
  apply upcoming_of_drop <;> rw [afterPlan_eq]

theorem afterPlan_draw (p : List PlanStep) (s : State) : (afterPlan p s).draw = s.upcoming (planRequests p) :=
  afterPlan_upcoming p s 0

theorem okDraws_add {s u : State} {m n : Nat} (hm : s.okDraws m) (hu : ∀ j, u.upcoming j = s.upcoming (m + j))
    (hn : u.okDraws n) : s.okDraws (m + n) := by
  intro j hj
  rcases Nat.lt_or_ge j m with hlt | hge
  · exact hm j hlt
  · obtain ⟨i, rfl⟩ := Nat.exists_eq_add_of_le hge
    rw [← hu]
    exact hn i (Nat.lt_of_add_lt_add_left hj)

/-! ### What running a plan can do -/

/-- The step `x`, reached in the state `u`, ends the operation in the state `t`. -/
inductive Stops : PlanStep → State → State → Prop
  /-- A transaction that fails. -/
  | failed {r : Request} {u : State} {e : ErrVal} (h : u.draw = .answer (.err e)) :
      Stops (.request r) u ((u.popDraw.record (.txn r (.err e))).abort .transportError e)
  /-- A transaction that is not answered. -/
  | unanswered {r : Request} {u : State} (h : u.draw = .silent) :
      Stops (.request r) u { u.popDraw.record (.txn r .unanswered) with pending := some (.txn r) }
  /-- A reset while a request is outstanding. -/
  | cutRequest {r : Request} {u : State} (h : u.draw = .reset .inside) :
      Stops (.request r) u (u.cutShort.record (.txn r .unanswered))
  /-- A reset while a delay runs. -/
  | cutWait {d : DelayKind} {u : State} (h : u.draw = .reset .inside) :
      Stops (.wait d) u (u.cutShort.record (.delay d))
  /-- A reset before the event. -/
  | cutBefore {x : PlanStep} {u : State} {at' : ResetTime} (h : u.draw = .reset at') (hbefore : at' ≠ .inside) :
      Stops x u u.cutShort

theorem Stops.not_ok {x : PlanStep} {u t : State} (h : Stops x u t) : u.draw.isOk = false := by
  cases h with
  | failed h | unanswered h | cutRequest h | cutWait h | cutBefore h => rw [h]; rfl

theorem delay_reset_inside {d : DelayKind} {s : State} {k : State → State} (h : s.draw = .reset .inside) :
    delay d s k = s.cutShort.record (.delay d) := by
  simp [delay, h]

theorem delay_reset_before {d : DelayKind} {s : State} {k : State → State}
    (h : s.draw = .reset .before ∨ s.draw = .reset .between) : delay d s k = s.cutShort := by
  rcases h with h | h <;> simp [delay, h]

/-- A step runs to its end, on successes, or it stops; what follows it has no part in that. -/
theorem PlanStep.run_cases (x : PlanStep) (s : State) :
    (s.okDraws x.requests ∧ ∀ k, x.run s k = k (x.after s)) ∨ ∃ t, Stops x s t ∧ ∀ k, x.run s k = t := by
  have hnone : s.okDraws 0 := fun _ hj => absurd hj (Nat.not_lt_zero _)
  cases x with
  | enter q => exact .inl ⟨hnone, fun _ => rfl⟩
  | request r =>
    rcases h : s.draw with (⟨d0, d1⟩ | e) | _ | (_ | _ | _)
    · refine .inl ⟨fun j hj => ?_, fun k => ?_⟩
      · rw [Nat.lt_one_iff.1 hj, upcoming_zero, h]; rfl
      · simp only [PlanStep.run, PlanStep.after, answered, transact_ok h, h, Draw.bytes]
    · exact .inr ⟨_, .failed h, fun _ => transact_err h⟩
    · exact .inr ⟨_, .unanswered h, fun _ => transact_silent h⟩
    · exact .inr ⟨_, .cutBefore h nofun, fun _ => transact_reset_before (.inr h)⟩
    · exact .inr ⟨_, .cutBefore h nofun, fun _ => transact_reset_before (.inl h)⟩
    · exact .inr ⟨_, .cutRequest h, fun _ => transact_reset_inside h⟩
  | wait d =>
    rcases h : s.draw with _ | _ | (_ | _ | _)
    · exact .inl ⟨hnone, fun _ => delay_undisturbed (by rw [h]; rfl)⟩
    · exact .inl ⟨hnone, fun _ => delay_undisturbed (by rw [h]; rfl)⟩
    · exact .inr ⟨_, .cutBefore h nofun, fun _ => delay_reset_before (.inr h)⟩
    · exact .inr ⟨_, .cutBefore h nofun, fun _ => delay_reset_before (.inl h)⟩
    · exact .inr ⟨_, .cutWait h, fun _ => delay_reset_inside h⟩

/-- A plan runs to its end, on successes, or it stops at one of its steps, after successes; what follows it has no
part in that. -/
theorem runPlan_cases (p : List PlanStep) (s : State) :
    (s.okDraws (planRequests p) ∧ ∀ k, runPlan p s k = k (afterPlan p s)) ∨
    ∃ p₁ x p₂ t, p = p₁ ++ x :: p₂ ∧ s.okDraws (planRequests p₁) ∧ Stops x (afterPlan p₁ s) t ∧
      ∀ k, runPlan p s k = t := by
  induction p generalizing s with
  | nil => exact .inl ⟨fun _ hj => absurd hj (Nat.not_lt_zero _), fun _ => rfl⟩
  | cons x p ih =>
    rcases x.run_cases s with ⟨hx, hrun⟩ | ⟨t, ht, hrun⟩
    · have hadd {n : Nat} : (x.after s).okDraws n → s.okDraws (x.requests + n) :=
        okDraws_add hx (afterPlan_upcoming [x] s)
      rcases ih (x.after s) with ⟨hp, hgo⟩ | ⟨p₁, y, p₂, t, rfl, hp, ht, hstop⟩
      · exact .inl ⟨hadd hp, fun k => (hrun _).trans (hgo k)⟩
      · exact .inr ⟨x :: p₁, y, p₂, t, rfl, hadd hp, ht, fun k => (hrun _).trans (hstop k)⟩
    · exact .inr ⟨[], x, p, t, rfl, fun _ hj => absurd hj (Nat.not_lt_zero _), ht, fun _ => hrun _⟩

/-- What follows a plan matters in the state after it alone. -/
theorem runPlan_congr {p : List PlanStep} {s : State} {k k' : State → State}
    (h : k (afterPlan p s) = k' (afterPlan p s)) : runPlan p s k = runPlan p s k' := by
  rcases runPlan_cases p s with ⟨-, hgo⟩ | ⟨_, _, _, _, -, -, -, hstop⟩
  · rw [hgo, hgo, h]
  · rw [hstop, hstop]

/-! ## The plan of an acquisition -/

/-- Step 1 (R91). -/
def biasPlan (c : Configuration) : List PlanStep :=
  .enter .biasWarmup ::
    if needsBias c then [.request (Request.write Config.addrConfig (biasByte c)), .wait .bias] else []

/-- Step 2 (R92), where the configuration read is answered with `cb`. -/
def conversionPlan (c : Configuration) (cb : Byte) : List PlanStep :=
  .enter .conversionPending ::
    if needsConversion c then
      [.request (Request.read Config.addrConfig 1), .request (Request.write Config.addrConfig (oneShotByte cb)),
        .wait .conv]
    else []

/-- Step 3 (R93). -/
def readBackPlan : List PlanStep := [.enter .readBack, .request (Request.read Config.addrRtd 2)]

/-- Step 4 (R94), and the end of the chain (R95). -/
def restorePlan (c : Configuration) : List PlanStep :=
  [.enter .restore, .request (Request.write Config.addrConfig (encodeConfig c)), .enter .idle]

/-- Steps 1 to 3. -/
def measuringPlan (c : Configuration) (cb : Byte) : List PlanStep :=
  biasPlan c ++ (conversionPlan c cb ++ readBackPlan)

/-- The four steps (R90). -/
def acquisitionPlan (c : Configuration) (cb : Byte) : List PlanStep := measuringPlan c cb ++ restorePlan c

/-- The acquisition that the state is about to make. -/
def State.plan (s : State) : List PlanStep := acquisitionPlan s.cfg (s.upcoming (configReadDraw s.cfg)).bytes.1

/-- A transaction goes on, if it does, with the bytes that the next input holds. -/
theorem transact_bytes (r : Request) (s : State) (k : Byte → Byte → State → State) :
    transact r s k = transact r s fun _ _ => k s.draw.bytes.1 s.draw.bytes.2 := by
  unfold transact
  rcases s.draw with (_ | _) | _ | (_ | _ | _) <;> rfl

theorem biasStep_eq_runPlan (c : Configuration) (s : State) (k : State → State) :
    biasStep c s k = runPlan (biasPlan c) s k := by
  unfold biasStep biasPlan
  split <;> rfl

theorem conversionStep_eq_runPlan (c : Configuration) (s : State) (k : State → State) :
    conversionStep c s k = runPlan (conversionPlan c s.draw.bytes.1) s k := by
  unfold conversionStep conversionPlan
  split
  · exact transact_bytes _ _ _
  · rfl

theorem readBackStep_eq_runPlan (s : State) (k : Ratio → State → State) :
    readBackStep s k = runPlan readBackPlan s (k (ratioOf (assembleRaw s.draw.bytes.1 s.draw.bytes.2))) :=
  transact_bytes _ _ _

theorem restoreStep_eq_runPlan (c : Configuration) (s : State) (k : State → State) :
    restoreStep c s k = runPlan (restorePlan c) s k := rfl

theorem planRequests_biasPlan (c : Configuration) : planRequests (biasPlan c) = configReadDraw c := by
  unfold biasPlan configReadDraw needsBias
  cases c.vbias <;> rfl

theorem planRequests_conversionPlan (c : Configuration) (cb : Byte) :
    configReadDraw c + planRequests (conversionPlan c cb) = rawReadDraw c := by
  unfold conversionPlan configReadDraw rawReadDraw acquisitionDraws needsConversion
  cases c.vbias <;> cases c.auto <;> rfl

theorem rawReadDraw_add_two (c : Configuration) : rawReadDraw c + 2 = acquisitionDraws c := by
  unfold rawReadDraw acquisitionDraws
  cases c.vbias <;> cases c.auto <;> rfl

theorem ratioOf_assembleRaw (d0 d1 : Byte) :
    ratioOf (assembleRaw d0 d1) = BitVec.ofNat 15 ((d0.toNat * 256 + d1.toNat) / 2) := by
  rw [← assembleRaw_toNat, ← ratioOf_toNat, BitVec.ofNat_toNat, BitVec.setWidth_eq]

/-- The acquisition runs its plan, and goes on with the ratio that its inputs foretell. -/
theorem acquireRatio_eq_runPlan (s : State) (k : Ratio → State → State) :
    acquireRatio s k = runPlan s.plan s (k s.acquiredRatio) := by
  unfold acquireRatio State.plan acquisitionPlan measuringPlan
  simp only [biasStep_eq_runPlan, conversionStep_eq_runPlan, readBackStep_eq_runPlan, restoreStep_eq_runPlan,
    runPlan_append]
  refine runPlan_congr ?_
  rw [afterPlan_draw, planRequests_biasPlan]
  refine runPlan_congr ?_
  rw [afterPlan_draw, afterPlan_upcoming, planRequests_biasPlan, planRequests_conversionPlan, ratioOf_assembleRaw]
  rfl

/-! ### What the plan holds (R95, R98) -/

theorem planRequests_measuringPlan (c : Configuration) (cb : Byte) :
    planRequests (measuringPlan c cb) + 1 = acquisitionDraws c := by
  rw [← rawReadDraw_add_two, ← planRequests_conversionPlan c cb, ← planRequests_biasPlan, measuringPlan,
    planRequests_append, planRequests_append]
  rfl

theorem planRequests_plan (s : State) : planRequests s.plan = acquisitionDraws s.cfg := by
  rw [State.plan, acquisitionPlan, planRequests_append]
  exact planRequests_measuringPlan _ _

theorem planWalk_plan (s : State) : planWalk s.plan = fullWalk := by
  simp only [State.plan, acquisitionPlan, measuringPlan, biasPlan, conversionPlan]
  split <;> split <;> rfl

theorem planEvents_biasPlan (c : Configuration) (s : State) :
    planEvents (biasPlan c) s = if needsBias c then [wrote (biasByte c), .delay .bias] else [] := by
  unfold biasPlan
  split <;> rfl

theorem planEvents_conversionPlan (c : Configuration) (cb : Byte) (s : State) :
    planEvents (conversionPlan c cb) s =
      if needsConversion c then [readConfig s.draw.bytes.1, wrote (oneShotByte cb), .delay .conv] else [] := by
  unfold conversionPlan
  split <;> rfl

theorem planEvents_readBackPlan (s : State) :
    planEvents readBackPlan s = [readRtd s.draw.bytes.1 s.draw.bytes.2] := rfl

theorem planEvents_restorePlan (c : Configuration) (s : State) :
    planEvents (restorePlan c) s = [wrote (encodeConfig c)] := rfl

/-- The table of R98, step by step. -/
theorem acquisitionEvents_eq (c : Configuration) (cb d0 d1 : Byte) :
    acquisitionEvents c cb d0 d1 =
      (if needsBias c then [wrote (biasByte c), .delay .bias] else []) ++
        ((if needsConversion c then [readConfig cb, wrote (oneShotByte cb), .delay .conv] else []) ++
          [readRtd d0 d1]) ++ [wrote (encodeConfig c)] := by
  unfold acquisitionEvents needsBias needsConversion
  cases c.vbias <;> cases c.auto <;> rfl

theorem planEvents_plan (s : State) : planEvents s.plan s = s.acquisition := by
  rw [State.acquisition, acquisitionEvents_eq, State.plan, acquisitionPlan, measuringPlan]
  simp only [planEvents_append, planEvents_biasPlan, planEvents_conversionPlan, planEvents_readBackPlan,
    planEvents_restorePlan, afterPlan_draw, afterPlan_upcoming, planRequests_biasPlan,
    planRequests_conversionPlan]

/-! ## An acquisition that LIFE admits runs its plan -/

theorem startOp_upcoming (s : State) (n : Nat) : s.startOp.upcoming n = s.upcoming n :=
  upcoming_congr n rfl rfl rfl

@[simp] theorem startOp_plan (s : State) : s.startOp.plan = s.plan := by
  simp only [State.plan, startOp_upcoming, startOp_cfg]

@[simp] theorem startOp_acquisition (s : State) : s.startOp.acquisition = s.acquisition := by
  simp only [State.acquisition, startOp_upcoming, startOp_cfg]

@[simp] theorem startOp_acquiredRatio (s : State) : s.startOp.acquiredRatio = s.acquiredRatio := by
  simp only [State.acquiredRatio, startOp_upcoming, startOp_cfg]

theorem startOp_okDraws {s : State} {n : Nat} (h : s.okDraws n) : s.startOp.okDraws n := fun j hj =>
  startOp_upcoming s j ▸ h j hj

/-- The next input after a plan that the operation in progress has run. -/
theorem afterPlan_startOp_draw (p : List PlanStep) (s : State) :
    (afterPlan p s.startOp).draw = s.upcoming (planRequests p) := by
  rw [afterPlan_draw, startOp_upcoming]

/-- The history after a plan that the operation in progress has run. -/
theorem afterPlan_startOp_events (p : List PlanStep) (s : State) :
    (afterPlan p s.startOp).events = planEvents p s.startOp :=
  afterPlan_events p s.startOp

/-- What GETRAW or GETTEMP answers, if it answers OK. -/
def State.acquisitionResult (s : State) : Instr → Result
  | .getTemp => .float (solveOn s.params s.acquiredRatio s.rref s.rnom)
  | _ => .ratio s.acquiredRatio

theorem exec_acquisition_of_up {i : Instr} (hi : i = .getRaw ∨ i = .getTemp) {s : State} (hup : s.life = .up) :
    exec i s = .next (runPlan s.plan s.startOp fun u => u.respond .ok (s.acquisitionResult i)) := by
  rcases hi with rfl | rfl <;> refine congrArg Host.Outcome.next ?_ <;>
    rw [needUp_of_up hup, acquireRatio_eq_runPlan, startOp_plan, startOp_acquiredRatio]
  · rfl
  · refine runPlan_congr ?_
    rw [afterPlan_eq]
    rfl

theorem exec_acquisition_of_not_up {i : Instr} (hi : i = .getRaw ∨ i = .getTemp) {s : State}
    (hup : s.life ≠ .up) : exec i s = .next (s.startOp.respond .notReady .none) := by
  rcases hi with rfl | rfl <;> exact congrArg _ (needUp_of_not_up hup)

/-- The events of the plan, made by the operation in progress. -/
theorem planEvents_plan_startOp (s : State) : planEvents s.plan s.startOp = s.acquisition := by
  rw [← startOp_plan, planEvents_plan, startOp_acquisition]

/-! ## The acquisition that succeeds (R98) -/

/-- Successes, and one of them to spare, run a plan to its end. -/
theorem runPlan_of_okDraws {p : List PlanStep} {s : State} {n : Nat} (hok : s.okDraws n)
    (hn : planRequests p < n) (k : State → State) : runPlan p s k = k (afterPlan p s) := by
  rcases runPlan_cases p s with ⟨-, hgo⟩ | ⟨p₁, x, p₂, t, rfl, -, ht, -⟩
  · exact hgo k
  · have hlt : planRequests p₁ < n := by rw [planRequests_append] at hn; omega
    have hnot := ht.not_ok
    rw [afterPlan_draw, hok _ hlt] at hnot
    cases hnot

theorem run_request_of_isOk {r : Request} {s : State} (h : s.draw.isOk = true) (k : State → State) :
    (PlanStep.request r).run s k = k ((PlanStep.request r).after s) :=
  transact_ok ((Draw.isOk_iff _).1 h)

/-- The last step needs its own success alone. -/
theorem runPlan_restorePlan {c : Configuration} {s : State} (h : s.draw.isOk = true) (k : State → State) :
    runPlan (restorePlan c) s k = k (afterPlan (restorePlan c) s) :=
  run_request_of_isOk (s := s.enter .restore) h fun u => k (u.enter .idle)

theorem runPlan_plan_of_okDraws {s : State} (hok : s.okDraws (acquisitionDraws s.cfg)) (k : State → State) :
    runPlan s.plan s k = k (afterPlan s.plan s) := by
  have hlast := planRequests_measuringPlan s.cfg (s.upcoming (configReadDraw s.cfg)).bytes.1
  rw [State.plan, acquisitionPlan, runPlan_append, runPlan_of_okDraws hok (by omega), runPlan_restorePlan,
    afterPlan_append]
  rw [afterPlan_draw]
  exact hok _ (by omega)

/-- The response to a plan that the operation in progress has run. -/
theorem respond_afterPlan {p : List PlanStep} {s : State} {st : Status} {r : Result}
    (hseq : (planWalk p).getLastD s.seq = s.seq) (htmr : s.tmr = 0) (hend : s.undisturbed (planRequests p)) :
    (afterPlan p s.startOp).respond st r =
      s.ended st r (planEvents p s.startOp) (planWalk p) (planRequests p) := by
  have hdraw : (afterPlan p s.startOp).draw.endsOperation = false := by
    rwa [afterPlan_startOp_draw]
  rw [respond_undisturbed _ _ hdraw, afterPlan_eq, afterPlan_tmr p (s := s.startOp) htmr]
  simpa [State.ended, State.startOp, htmr] using hseq

/-- Both acquisitions, where all answers are successes (R98). -/
theorem exec_acquisition_of_okDraws {i : Instr} (hi : i = .getRaw ∨ i = .getTemp) {s : State}
    (hup : s.life = .up) (hseq : s.seq = .idle) (htmr : s.tmr = 0)
    (hok : s.okDraws (acquisitionDraws s.cfg)) (hend : s.undisturbed (acquisitionDraws s.cfg)) :
    exec i s =
      .next (s.ended .ok (s.acquisitionResult i) s.acquisition fullWalk (acquisitionDraws s.cfg)) := by
  have hrun := runPlan_plan_of_okDraws (s := s.startOp) (startOp_okDraws hok)
  rw [startOp_plan] at hrun
  rw [exec_acquisition_of_up hi hup, hrun, respond_afterPlan, planEvents_plan_startOp, planWalk_plan,
    planRequests_plan]
  · rw [planWalk_plan, hseq]; rfl
  · exact htmr
  · rwa [planRequests_plan]

/-- Settles O14: successes run the whole plan, and the response follows. -/
theorem getRawRunsItsSequence : Obligations.GetRawRunsItsSequence := fun _ =>
  exec_acquisition_of_okDraws (.inl rfl)

/-- Settles O15: the plan of GETTEMP is that of GETRAW, and its answer is the solver's. -/
theorem getTempRunsItsSequence : Obligations.GetTempRunsItsSequence := fun _ =>
  exec_acquisition_of_okDraws (.inr rfl)

/-! ## Where an acquisition stops -/

/-- A plan whose first input that is no success is number `k` stops at the step that takes or senses it, or takes
no more than `k` inputs. -/
theorem runPlan_stops_at (p : List PlanStep) {s : State} {k : Nat} (hok : s.okDraws k)
    (hnot : (s.upcoming k).isOk = false) :
    (planRequests p ≤ k ∧ ∀ f, runPlan p s f = f (afterPlan p s)) ∨
    ∃ p₁ x p₂ t, p = p₁ ++ x :: p₂ ∧ planRequests p₁ = k ∧ Stops x (afterPlan p₁ s) t ∧
      ∀ f, runPlan p s f = t := by
  have hle {n : Nat} (hn : s.okDraws n) : n ≤ k := by
    by_contra hlt
    rw [hn k (Nat.lt_of_not_le hlt)] at hnot
    cases hnot
  rcases runPlan_cases p s with ⟨hp, hgo⟩ | ⟨p₁, x, p₂, t, hsplit, hp, ht, hstop⟩
  · exact .inl ⟨hle hp, hgo⟩
  · refine .inr ⟨p₁, x, p₂, t, hsplit, (hle hp).antisymm ?_, ht, hstop⟩
    by_contra hlt
    have hstuck := ht.not_ok
    rw [afterPlan_draw, hok _ (Nat.lt_of_not_le hlt)] at hstuck
    cases hstuck

/-- Where the first input that is no success is number `k`, the acquisition stops at the step that takes or senses
it; if it takes no more than `k` inputs, it comes to its response. -/
theorem exec_acquisition_stops_at {i : Instr} (hi : i = .getRaw ∨ i = .getTemp) {s : State} (hup : s.life = .up)
    {k : Nat} (hok : s.okDraws k) (hnot : (s.upcoming k).isOk = false) :
    (acquisitionDraws s.cfg ≤ k ∧
      exec i s = .next ((afterPlan s.plan s.startOp).respond .ok (s.acquisitionResult i))) ∨
    ∃ p₁ x p₂ t, s.plan = p₁ ++ x :: p₂ ∧ planRequests p₁ = k ∧ Stops x (afterPlan p₁ s.startOp) t ∧
      exec i s = .next t := by
  rw [exec_acquisition_of_up hi hup, ← planRequests_plan]
  rw [← startOp_upcoming] at hnot
  rcases runPlan_stops_at s.plan (startOp_okDraws hok) hnot with ⟨hle, hgo⟩ | ⟨p₁, x, p₂, t, hplan, hk, ht, hstop⟩
  · exact .inl ⟨hle, congrArg _ (hgo _)⟩
  · exact .inr ⟨p₁, x, p₂, t, hplan, hk, ht, congrArg _ (hstop _)⟩

/-- A property of events that every transaction answered with success has, and no delay, counts the requests. -/
theorem planEvents_filter_length {f : Event → Bool} (hrequest : ∀ s r, f (answered s r) = true)
    (hdelay : ∀ d, f (.delay d) = false) (p : List PlanStep) (s : State) :
    ((planEvents p s).filter f).length = planRequests p := by
  induction p generalizing s with
  | nil => rfl
  | cons x p ih =>
    rw [planEvents, List.filter_append, List.length_append, ih, planRequests_cons]
    cases x with
    | enter => rfl
    | request r => rw [PlanStep.events, List.filter_cons_of_pos (hrequest s r)]; rfl
    | wait d => rw [PlanStep.events, List.filter_cons_of_neg (by simp [hdelay])]; rfl

/-- The history up to the step at which the acquisition stops, and from there on. -/
theorem acquisition_split {s : State} {p₁ p₂ : List PlanStep} {x : PlanStep} (h : s.plan = p₁ ++ x :: p₂) :
    s.acquisition = planEvents p₁ s.startOp ++ (x.events (afterPlan p₁ s.startOp) ++
      planEvents p₂ (x.after (afterPlan p₁ s.startOp))) := by
  rw [← planEvents_plan_startOp, h, planEvents_append, planEvents]

/-! ### A failed transaction (R99) -/

/-- Where the next input is an error, it is a request that stops, and it aborts the operation. -/
theorem Stops.eq_abort {x : PlanStep} {u t : State} {e : ErrVal} (h : Stops x u t)
    (hdraw : u.draw = .answer (.err e)) :
    ∃ r, x = .request r ∧ t = (u.popDraw.record (.txn r (.err e))).abort .transportError e := by
  cases h with
  | failed h =>
    cases h.symm.trans hdraw
    exact ⟨_, rfl, rfl⟩
  | unanswered h | cutRequest h | cutWait h | cutBefore h => cases h.symm.trans hdraw

/-- The last step of an acquisition brings STATE back to Idle. -/
theorem plan_eq_concat (s : State) : ∃ q, s.plan = q ++ [.enter .idle] :=
  ⟨measuringPlan _ _ ++ [_, _], (List.append_assoc _ [_, _] [PlanStep.enter .idle]).symm⟩

/-- Every request of an acquisition stands after a state of the chain and before the last one. -/
theorem planWalk_before_request {s : State} {p₁ p₂ : List PlanStep} {r : Request}
    (h : s.plan = p₁ ++ .request r :: p₂) :
    1 ≤ (planWalk p₁).length ∧ (planWalk p₁).length ≤ 4 ∧ planWalk p₁ = fullWalk.take (planWalk p₁).length := by
  have hwalk : fullWalk = planWalk p₁ ++ planWalk p₂ := by
    rw [← planWalk_plan s, h, planWalk_append, planWalk_cons]
    rfl
  have hfirst : 1 ≤ (planWalk p₁).length := by
    cases p₁ with
    | nil => cases h
    | cons y q =>
      obtain ⟨rfl, -⟩ := List.cons.inj h
      exact Nat.le_add_left 1 _
  have hlast : 1 ≤ (planWalk p₂).length := by
    obtain ⟨q, hq⟩ := plan_eq_concat s
    rcases List.eq_nil_or_concat' p₂ with rfl | ⟨q', y, rfl⟩
    · cases List.append_inj_right' (hq.symm.trans h) rfl
    · rw [← List.cons_append, ← List.append_assoc] at h
      cases List.append_inj_right' (hq.symm.trans h) rfl
      rw [planWalk_append, List.length_append]
      exact Nat.le_add_left 1 _
  have hlength : 5 = (planWalk p₁).length + (planWalk p₂).length := by
    rw [← List.length_append, ← hwalk]
    rfl
  exact ⟨hfirst, by omega, by rw [hwalk, List.take_left]⟩

/-- The error that ends an operation after a plan that it has run. -/
theorem abort_afterPlan {p : List PlanStep} {s : State} {r : Request} {e : ErrVal}
    (hseq : s.seq = .idle) (htmr : s.tmr = 0) (hend : s.undisturbed (planRequests p + 1)) :
    ((afterPlan p s.startOp).popDraw.record (.txn r (.err e))).abort .transportError e =
      s.ended .transportError (.error e) (planEvents p s.startOp ++ [.txn r (.err e)]) (planWalk p)
        (planRequests p + 1) := by
  have hdraw : ((afterPlan p s.startOp).popDraw.record (.txn r (.err e))).draw.endsOperation = false := by
    rwa [State.undisturbed, ← startOp_upcoming, ← afterPlan_upcoming p s.startOp 1] at hend
  rw [abort_undisturbed _ _ hdraw, afterPlan_eq]
  simp [State.ended, State.startOp, State.popDraw, State.record, hseq, htmr, Nat.add_assoc]

/-- Settles O17: the plan stops at the request that fails, and what ran before it is what the sequence foretells. -/
theorem failedTransactionEndsAcquisition : Obligations.FailedTransactionEndsAcquisition := by
  intro i s k e hi hup hseq htmr hk hok herr hend
  rcases exec_acquisition_stops_at hi hup hok (by rw [herr]; rfl) with
    ⟨hle, -⟩ | ⟨p₁, x, p₂, t, hplan, rfl, ht, hexec⟩
  · exact absurd hk (Nat.not_lt_of_le hle)
  · obtain ⟨r, rfl, rfl⟩ := ht.eq_abort ((afterPlan_startOp_draw p₁ s).trans herr)
    obtain ⟨hfirst, hlast, hwalk⟩ := planWalk_before_request hplan
    refine ⟨planEvents p₁ s.startOp, answered (afterPlan p₁ s.startOp) r, _, _, acquisition_split hplan, rfl,
      planEvents_filter_length (fun _ _ => rfl) (fun _ => rfl) _ _, hfirst, hlast, ?_⟩
    rw [hexec, abort_afterPlan hseq htmr hend, ← hwalk]
    rfl

/-! ### A reset (R170) -/

/-- What a step leaves at which a reset comes: of its event a request at most, and that only if the reset came while
it was outstanding; a delay that the reset cuts stands in the history. -/
theorem Stops.reset {x : PlanStep} {u t : State} {at' : ResetTime} (h : Stops x u t)
    (hdraw : u.draw = .reset at') :
    t.resetPin = true ∧ t.AtReset ∧
      (t.events = u.events ∨
        (at' = .inside ∧ ∃ r, x = .request r ∧ t.events = u.events ++ [.txn r .unanswered]) ∨
        ∃ d, x = .wait d ∧ t.events = u.events ++ [.delay d]) := by
  cases h with
  | failed h | unanswered h => cases h.symm.trans hdraw
  | cutRequest h =>
    cases h.symm.trans hdraw
    exact ⟨rfl, cutShort_atReset u, .inr (.inl ⟨rfl, _, rfl, rfl⟩)⟩
  | cutWait h => exact ⟨rfl, cutShort_atReset u, .inr (.inr ⟨_, rfl, rfl⟩)⟩
  | cutBefore => exact ⟨rfl, cutShort_atReset u, .inl rfl⟩

/-- Settles O59: the plan stops at the step to which the reset comes, or the reset comes before the response. -/
theorem resetEndsAcquisitionAnywhere : Obligations.ResetEndsAcquisitionAnywhere := by
  intro i s k at' hi hup hk hok hreset hbetween
  have hcount (p : List PlanStep) : ((planEvents p s.startOp).filter Event.succeeded).length = planRequests p :=
    planEvents_filter_length (fun _ _ => rfl) (fun _ => rfl) p s.startOp
  rcases exec_acquisition_stops_at hi hup hok (by rw [hreset]; rfl) with
    ⟨hle, hexec⟩ | ⟨p₁, x, p₂, t, hplan, rfl, ht, hexec⟩
  · obtain rfl : k = acquisitionDraws s.cfg := hk.antisymm hle
    have hends : (afterPlan s.plan s.startOp).draw.endsOperation = true := by
      rw [afterPlan_startOp_draw, planRequests_plan, hreset]
      cases at' with
      | between => exact absurd (hbetween rfl) (Nat.lt_irrefl _)
      | before | inside => rfl
    rw [respond_reset _ _ hends] at hexec
    refine ⟨_, hexec, rfl, cutShort_atReset _, ?_, .inl ?_⟩ <;> rw [cutShort_events, afterPlan_startOp_events]
    · rw [hcount, planRequests_plan]
    · rw [planEvents_plan_startOp]
  · obtain ⟨hpin, hatReset, hevents⟩ := ht.reset ((afterPlan_startOp_draw p₁ s).trans hreset)
    refine ⟨t, hexec, hpin, hatReset, ?_⟩
    rw [acquisition_split hplan]
    rw [afterPlan_startOp_events] at hevents
    rcases hevents with hevents | ⟨hinside, r, rfl, hevents⟩ | ⟨d, rfl, hevents⟩ <;> rw [hevents]
    · exact ⟨hcount p₁, .inl ⟨_, rfl⟩⟩
    · refine ⟨?_, .inr ⟨hinside, _, _, _, _, rfl, rfl⟩⟩
      rw [List.filter_append, List.length_append, hcount]
      rfl
    · refine ⟨?_, .inl ⟨_, List.append_assoc _ _ _⟩⟩
      rw [List.filter_append, List.length_append, hcount]
      rfl

/-! ## GETTEMP is GETRAW followed by the solver (R97) -/

/-- An answer of another status is not OK, and neither is a reset. -/
theorem respond_resp_ne_ok (s : State) {st : Status} (r r' : Result) (hst : st ≠ .ok) :
    (s.respond st r).resp ≠ some ⟨.ok, r'⟩ := by
  rcases respond_cases s st r with ⟨-, h⟩ | ⟨-, h⟩ <;> rw [h]
  · intro heq
    cases heq
    exact hst rfl
  · exact nofun

theorem Stops.resp_ne_ok {x : PlanStep} {u t : State} (h : Stops x u t) (hu : u.resp = none) (r : Result) :
    t.resp ≠ some ⟨.ok, r⟩ := by
  cases h with
  | failed => exact respond_resp_ne_ok _ _ _ nofun
  | unanswered => exact hu ▸ nofun
  | cutRequest | cutWait | cutBefore => exact nofun

/-- Settles O16: both run one plan from one state, so they stop alike, or respond in the same state after it. -/
theorem getTempIsGetRawThenSolver : Obligations.GetTempIsGetRawThenSolver := by
  refine ⟨fun _ _ => rfl, fun s u hu => ?_⟩
  by_cases hup : s.life = .up
  · rw [exec_acquisition_of_up (.inl rfl) hup] at hu
    cases hu
    rw [exec_acquisition_of_up (.inr rfl) hup]
    rcases runPlan_cases s.plan s.startOp with ⟨-, hgo⟩ | ⟨p₁, _, _, t, -, -, ht, hstop⟩
    · rw [hgo, hgo]
      rcases hends : (afterPlan s.plan s.startOp).draw.endsOperation with _ | _
      · rw [respond_undisturbed _ _ hends, respond_undisturbed _ _ hends]
        exact .inl ⟨_, rfl, rfl⟩
      · rw [respond_reset _ _ hends, respond_reset _ _ hends]
        exact .inr ⟨nofun, rfl⟩
    · rw [hstop, hstop]
      exact .inr ⟨ht.resp_ne_ok (by rw [afterPlan_resp, startOp_resp]), rfl⟩
  · rw [exec_acquisition_of_not_up (.inl rfl) hup] at hu
    cases hu
    exact .inr ⟨fun _ => respond_resp_ne_ok _ _ _ nofun, exec_acquisition_of_not_up (.inr rfl) hup⟩

/-! ## Where the delays stand (R173)

Whatever the answers, the history of an acquisition is the beginning of its sequence, but for the outcomes. -/

/-- An event without its outcome. -/
def Event.shape (ev : Event) : Event := ev.withOutcome .unanswered

theorem Event.shape_eq_delay {ev : Event} {d : DelayKind} (h : ev.shape = .delay d) : ev = .delay d := by
  cases ev with
  | delay => exact h
  | txn | acquire | release => cases h

theorem eq_concat_delay {es es' : List Event} {d : DelayKind} (h : es.map Event.shape = es' ++ [.delay d]) :
    ∃ before, es = before ++ [.delay d] := by
  obtain ⟨before, last, rfl, -, hlast⟩ := List.map_eq_append_iff.1 h
  obtain ⟨ev, rfl, hev⟩ := List.map_eq_singleton_iff.1 hlast
  exact ⟨before, by rw [Event.shape_eq_delay hev]⟩

/-- A step that stops has made its event, or has not. -/
theorem Stops.events {x : PlanStep} {u t : State} (h : Stops x u t) :
    ∃ es, t.events = u.events ++ es ∧ es.map Event.shape <+: (x.events u).map Event.shape := by
  cases h with
  | failed => exact ⟨_, abort_events _ _ _, List.prefix_rfl⟩
  | unanswered | cutRequest | cutWait => exact ⟨_, rfl, List.prefix_rfl⟩
  | cutBefore => exact ⟨[], (List.append_nil _).symm, List.nil_prefix⟩

/-- The shapes of the history are those of the sequence, as far as it goes. -/
theorem exec_acquisition_shapes {i : Instr} (hi : i = .getRaw ∨ i = .getTemp) (s : State) :
    Leaves i s fun t => t.events.map Event.shape <+: s.acquisition.map Event.shape := by
  by_cases hup : s.life = .up
  · refine ⟨_, exec_acquisition_of_up hi hup, ?_⟩
    rcases runPlan_cases s.plan s.startOp with ⟨-, hgo⟩ | ⟨p₁, x, p₂, t, hplan, -, ht, hstop⟩
    · rw [hgo, respond_events, afterPlan_startOp_events, planEvents_plan_startOp]
    · obtain ⟨es, hes, hshapes⟩ := ht.events
      rw [hstop, hes, afterPlan_startOp_events, acquisition_split hplan, List.map_append, List.map_append,
        List.map_append, List.prefix_append_right_inj]
      exact hshapes.trans (List.prefix_append _ _)
  · exact ⟨_, exec_acquisition_of_not_up hi hup, by simp⟩

theorem acquisition_of_not_vbias {s : State} (h : s.cfg.vbias = false) :
    ∃ e rest, s.acquisition = e :: .delay .bias :: rest := by
  rw [State.acquisition, acquisitionEvents_eq, needsBias, h]
  exact ⟨_, _, rfl⟩

/-- The raw read without its outcome. -/
def rawReadShape : Event := .txn (Request.read Config.addrRtd 2) .unanswered

/-- Without auto-conversion Delay(CONV) comes before the raw read, and there is no other raw read. -/
theorem acquisition_shapes_of_not_auto {s : State} (h : s.cfg.auto = false) :
    ∃ es es', s.acquisition.map Event.shape = (es ++ [.delay .conv]) ++ rawReadShape :: es' ∧
      rawReadShape ∉ es ++ [.delay .conv] ∧ rawReadShape ∉ es' := by
  rw [State.acquisition, acquisitionEvents_eq, needsConversion, h]
  generalize (s.upcoming (configReadDraw s.cfg)).bytes.1 = cb
  refine ⟨(if needsBias s.cfg then [wrote (biasByte s.cfg), .delay .bias] else []).map Event.shape ++
    [(readConfig cb).shape, (wrote (oneShotByte cb)).shape], [(wrote (encodeConfig s.cfg)).shape], ?_, ?_, ?_⟩
  · simp [readRtd, Event.shape, rawReadShape, Event.withOutcome]
  · split <;> simp [rawReadShape, Event.shape, Event.withOutcome, wrote, readConfig, Request.read, Request.write]
  · simp [rawReadShape, Event.shape, Event.withOutcome, wrote, Request.read, Request.write]

/-- Settles O19: the history has the shapes of the sequence, in which the two delays have their places. -/
theorem delaysStandWhereTheyMust : Obligations.DelaysStandWhereTheyMust := by
  intro i s t hi ht
  have hshapes := (exec_acquisition_shapes hi s).of_exec ht
  refine ⟨fun hvbias e0 e1 rest hevents => ?_, fun hauto before o rest hevents => ?_⟩
  · obtain ⟨e, es, hacq⟩ := acquisition_of_not_vbias hvbias
    rw [hevents, hacq] at hshapes
    simp only [List.map_cons, List.cons_prefix_cons] at hshapes
    exact Event.shape_eq_delay hshapes.2.1
  · obtain ⟨es, es', hacq, hes, hes'⟩ := acquisition_shapes_of_not_auto hauto
    obtain ⟨more, hmore⟩ := hshapes
    rw [hevents, hacq, List.map_append, List.map_cons, List.append_assoc, List.cons_append, eq_comm,
      show Event.shape (.txn _ o) = rawReadShape from rfl] at hmore
    obtain ⟨hbefore, -, -⟩ := (List.append_cons_inj_of_notMem hes hes').1 hmore
    exact eq_concat_delay hbefore.symm

end Sys2Proof.Machine

/-! PROOF. Family 43_fault_manager: the history of an operation in progress and what a transaction adds to it;
CLEARFAULT writes back the byte it reads with bit 1 cleared (O23), and READFAULT answers the fault-status byte as it
came (O24). -/

namespace Sys2Proof.Machine

/-! ## An operation in progress
An operation that LIFE admits moves nothing but the history and the inputs while its requests are answered with
success, so its history says in what state it is. -/

/-- The operation that began in `s` has had the history `es`, one input for each event. -/
def State.during (s : State) (es : List Event) : State :=
  { s.startOp with events := es, script := s.script.drop es.length, draws := s.draws + es.length }

theorem startOp_eq_during (s : State) : s.startOp = s.during [] := rfl

theorem needUp_during {s : State} {k : State → State} (h : s.life = .up) : needUp s k = k (s.during []) :=
  (needUp_of_up h).trans (congrArg k (startOp_eq_during s))

theorem during_popDraw_record (s : State) (es : List Event) (e : Event) :
    (s.during es).popDraw.record e = s.during (es ++ [e]) := by
  simp [State.during, State.popDraw, State.record, Nat.add_assoc]

theorem during_upcoming (s : State) (es : List Event) (n : Nat) :
    (s.during es).upcoming n = s.upcoming (es.length + n) :=
  upcoming_of_drop (s := s) (u := s.during es) rfl rfl rfl n

theorem during_draw (s : State) (es : List Event) : (s.during es).draw = s.upcoming es.length :=
  during_upcoming s es 0

/-- The response to the history of the operation in progress. -/
theorem during_respond {s : State} {es : List Event} (st : Status) (r : Result) (hend : s.undisturbed es.length) :
    (s.during es).respond st r = s.ended st r es [] es.length :=
  respond_undisturbed st r ((congrArg Draw.endsOperation (during_draw s es)).trans hend)

/-- The error that ends the operation in progress. -/
theorem during_abort {s : State} {es : List Event} (st : Status) (e : ErrVal) (hseq : s.seq = .idle)
    (htmr : s.tmr = 0) (hend : s.undisturbed es.length) :
    (s.during es).abort st e = s.ended st (.error e) es [] es.length := by
  rw [abort_undisturbed st e ((congrArg Draw.endsOperation (during_draw s es)).trans hend)]
  simp [State.during, State.startOp, State.ended, hseq, htmr]

/-- A failure is the last event of the operation (R154). -/
theorem during_transact_err {s : State} {es : List Event} {r : Request} {k : Byte → Byte → State → State}
    {e : ErrVal} (hseq : s.seq = .idle) (htmr : s.tmr = 0) (h : s.upcoming es.length = .answer (.err e))
    (hend : s.undisturbed (es.length + 1)) :
    transact r (s.during es) k =
      s.ended .transportError (.error e) (es ++ [.txn r (.err e)]) [] (es.length + 1) := by
  have hlength : (es ++ [Event.txn r (.err e)]).length = es.length + 1 := List.length_append
  rw [transact_err ((during_draw s es).trans h), during_popDraw_record,
    during_abort _ _ hseq htmr (hlength ▸ hend), hlength]

section Transactions

variable {s : State} {es : List Event} {e : ErrVal} {d0 d1 : Byte}

/-! A success takes the operation to its next event. -/

theorem cfgWr_during_ok {b : Byte} {k : State → State} (h : s.upcoming es.length = .answer (.ok d0 d1)) :
    cfgWr b (s.during es) k = k (s.during (es ++ [wrote b])) := by
  rw [cfgWr_ok ((during_draw s es).trans h), during_popDraw_record]

theorem cfgRd_during_ok {k : Byte → State → State} (h : s.upcoming es.length = .answer (.ok d0 d1)) :
    cfgRd (s.during es) k = k d0 (s.during (es ++ [readConfig d0])) := by
  rw [cfgRd_ok ((during_draw s es).trans h), during_popDraw_record]

theorem faultRd_during_ok {k : Byte → State → State} (h : s.upcoming es.length = .answer (.ok d0 d1)) :
    faultRd (s.during es) k = k d0 (s.during (es ++ [readFaultStatus d0])) := by
  rw [faultRd_ok ((during_draw s es).trans h), during_popDraw_record]

/-! A failure ends it. -/

theorem cfgWr_during_err {b : Byte} {k : State → State} (hseq : s.seq = .idle) (htmr : s.tmr = 0)
    (h : s.upcoming es.length = .answer (.err e)) (hend : s.undisturbed (es.length + 1)) :
    cfgWr b (s.during es) k =
      s.ended .transportError (.error e) (es ++ [(wrote b).withOutcome (.err e)]) [] (es.length + 1) :=
  during_transact_err (r := Request.write Config.addrConfig b) hseq htmr h hend

theorem cfgRd_during_err {k : Byte → State → State} (hseq : s.seq = .idle) (htmr : s.tmr = 0)
    (h : s.upcoming es.length = .answer (.err e)) (hend : s.undisturbed (es.length + 1)) :
    cfgRd (s.during es) k =
      s.ended .transportError (.error e) (es ++ [(readConfig 0).withOutcome (.err e)]) [] (es.length + 1) :=
  during_transact_err (r := Request.read Config.addrConfig 1) hseq htmr h hend

theorem faultRd_during_err {k : Byte → State → State} (hseq : s.seq = .idle) (htmr : s.tmr = 0)
    (h : s.upcoming es.length = .answer (.err e)) (hend : s.undisturbed (es.length + 1)) :
    faultRd (s.during es) k =
      s.ended .transportError (.error e) (es ++ [(readFaultStatus 0).withOutcome (.err e)]) [] (es.length + 1) :=
  during_transact_err (r := Request.read Config.addrFault 1) hseq htmr h hend

end Transactions

/-! ## The byte that CLEARFAULT writes (R110) -/

theorem clearFaultByte_bit1 (cb : Byte) : (clearFaultByte cb).getLsbD 1 = false := by
  rw [clearFaultByte, BitVec.getLsbD_and]
  exact Bool.and_false _

theorem clearFaultByte_other_bit (cb : Byte) {i : Nat} (hi : i ≠ 1) :
    (clearFaultByte cb).getLsbD i = cb.getLsbD i := by
  have hmask : ∀ j < 8, j ≠ 1 → (0xFD#8).getLsbD j = true := by decide
  rw [clearFaultByte, BitVec.getLsbD_and]
  rcases Nat.lt_or_ge i 8 with hlt | hge
  · rw [hmask i hlt hi, Bool.and_true]
  · rw [BitVec.getLsbD_of_ge cb i hge, Bool.false_and]

/-! ## CLEARFAULT (R110) -/

theorem exec_clearFault_of_up {s : State} (hup : s.life = .up) :
    exec .clearFault s = .next (cfgRd (s.during []) fun cb u =>
      cfgWr (clearFaultByte cb) u fun v => v.respond .ok .none) :=
  congrArg Host.Outcome.next (needUp_during hup)

/-- Settles O23: the byte written is `clearFaultByte cb`. -/
theorem clearFaultWritesTheByteReadWithBitOneCleared :
    Obligations.ClearFaultWritesTheByteReadWithBitOneCleared := by
  refine ⟨fun _ _ => rfl, fun s => ⟨fun hlife hend => ?_, fun hup => ⟨fun e hseq htmr herr hend => ?_,
    fun cb x hread hend => ⟨clearFaultByte cb, clearFaultByte_bit1 cb, fun _ => clearFaultByte_other_bit cb,
      fun y z hwrite => ?_, fun e hseq htmr herr => ?_⟩⟩⟩⟩
  · exact operationsNotAdmittedChangeNothing _ s (.inl ⟨rfl, hlife⟩) hend
  · rw [exec_clearFault_of_up hup, cfgRd_during_err (es := []) hseq htmr herr hend]
    rfl
  · rw [exec_clearFault_of_up hup, cfgRd_during_ok hread, List.nil_append, cfgWr_during_ok hwrite, during_respond _ _ hend]
    rfl
  · rw [exec_clearFault_of_up hup, cfgRd_during_ok hread, List.nil_append, cfgWr_during_err (es := [readConfig cb]) hseq htmr herr hend]
    rfl

/-! ## READFAULT (R111) -/

theorem exec_readFault_of_up {s : State} (hup : s.life = .up) :
    exec .readFault s = .next (faultRd (s.during []) fun fs u => u.respond .ok (.byte fs)) :=
  congrArg Host.Outcome.next (needUp_during hup)

/-- Settles O24: the one event is the read, and the response carries its byte. -/
theorem readFaultPassesTheByteThrough : Obligations.ReadFaultPassesTheByteThrough := by
  refine ⟨fun _ _ => rfl, fun s => ⟨fun hlife hend => ?_, fun hup hend => ⟨fun fs x hread => ?_,
    fun e hseq htmr herr => ?_⟩⟩⟩
  · exact operationsNotAdmittedChangeNothing _ s (.inl ⟨rfl, hlife⟩) hend
  · rw [exec_readFault_of_up hup, faultRd_during_ok hread, during_respond _ _ hend]
    rfl
  · rw [exec_readFault_of_up hup, faultRd_during_err (es := []) hseq htmr herr hend]
    rfl

end Sys2Proof.Machine

/-! PROOF. Family 44_temperature_solver: the operations of the solver answer their formulas (O47, O55), what the
formulas are over the real numbers (O48, O49, O50), and what the rounding of a format does to them: it gives the
nearest number (O53, O52), the branch test is the comparison with zero (O51), and SOLVE answers no NaN (O54). -/

namespace Sys2Proof.Machine

/-! ## The four operations answer (R122 to R127) -/

/-- Settles O47: the formulas are `resistOn`, `cvdOn`, `polyOn` and `solveOn`, written out. -/
theorem solverOperationsAnswerTheirFormulas : Obligations.SolverOperationsAnswerTheirFormulas := by
  intro s ratio x y h
  exact ⟨exec_pure_undisturbed rfl h, exec_pure_undisturbed rfl h, exec_pure_undisturbed rfl h,
    exec_pure_undisturbed rfl h⟩

/-- Settles O55: each constant is evaluated. -/
theorem constantsHaveTheTabledPatterns : Obligations.ConstantsHaveTheTabledPatterns := by
  unfold Obligations.ConstantsHaveTheTabledPatterns
  decide

/-! ## The formulas over the real numbers (R123 to R125) -/

@[simp] theorem realNum_fadd (x y : ℝ) : realNum.fadd x y = x + y := rfl
@[simp] theorem realNum_fsub (x y : ℝ) : realNum.fsub x y = x - y := rfl
@[simp] theorem realNum_fmul (x y : ℝ) : realNum.fmul x y = x * y := rfl
@[simp] theorem realNum_fdiv (x y : ℝ) : realNum.fdiv x y = x / y := rfl
@[simp] theorem realNum_fsqrt (x : ℝ) : realNum.fsqrt x = √x := rfl
@[simp] theorem realNum_fneg (x : ℝ) : realNum.fneg x = -x := rfl
@[simp] theorem realNum_ofNat (n : Ratio) : realNum.ofNat n = n.toNat := rfl
theorem realNum_lit (l : DecLit) : realNum.lit l = DecLit.real l := rfl

@[simp] theorem realNum_lit_intLit (n : Nat) : realNum.lit (intLit n) = n := by
  simp [realNum_lit, DecLit.real, intLit]

theorem realNum_lit_cvdA : realNum.lit cvdA = 3.9083e-3 := by norm_num [realNum_lit, DecLit.real, cvdA]

theorem realNum_lit_cvdB : realNum.lit cvdB = -5.775e-7 := by norm_num [realNum_lit, DecLit.real, cvdB]

theorem resist_real (ratio : Ratio) (rref : ℝ) : resist realNum ratio rref = ratio.toNat * rref / 32768 := by
  simp [resist]

theorem polyRatio_real (rrtd rnom : ℝ) : polyRatio realNum rrtd rnom = 100 * rrtd / rnom := by
  simp [polyRatio]

/-- Settles O50: a ratio is below 32768. -/
theorem resistanceStaysBelowReference : Obligations.ResistanceStaysBelowReference := by
  intro ratio rref hrref
  have hratio : (ratio.toNat : ℝ) < 32768 := by exact_mod_cast ratio.isLt
  rw [resist_real]
  refine ⟨rfl, by positivity, ?_⟩
  rw [div_lt_iff₀ (by norm_num), mul_comm rref]
  exact mul_lt_mul_of_pos_right hratio hrref

/-- Settles O49: each literal is the printed coefficient. -/
theorem fallbackModelIsTheQuintic : Obligations.FallbackModelIsTheQuintic := by
  intro rrtd rnom r
  have hr : polyRatio realNum rrtd rnom = r := polyRatio_real rrtd rnom
  rw [poly, hr]
  norm_num [quintic, realNum_lit, DecLit.real, polyPrinted]
  ring

/-- The root of `1 + a·t + b·t² = x` that the primary model computes. -/
noncomputable def primaryRoot (a b x : ℝ) : ℝ := (√(a ^ 2 - 4 * b * (1 - x)) - a) / (2 * b)

theorem primaryRoot_spec {a b x : ℝ} (hb : b ≠ 0) (hdisc : 0 ≤ a ^ 2 - 4 * b * (1 - x)) :
    1 + a * primaryRoot a b x + b * primaryRoot a b x ^ 2 = x := by
  have hsqrt : discrim b a (1 - x) = √(a ^ 2 - 4 * b * (1 - x)) * √(a ^ 2 - 4 * b * (1 - x)) :=
    (Real.mul_self_sqrt hdisc).symm
  have hroot := (quadratic_eq_zero_iff hb hsqrt (primaryRoot a b x)).2 (.inl (by rw [primaryRoot]; ring))
  linear_combination hroot

theorem primaryRoot_pos_iff {a b x : ℝ} (ha : 0 < a) (hb : b < 0) : 0 < primaryRoot a b x ↔ 1 < x :=
  calc 0 < primaryRoot a b x
    _ ↔ √(a ^ 2 - 4 * b * (1 - x)) - a < 0 := by
      rw [primaryRoot, ← neg_div_neg_eq, div_pos_iff_of_pos_right (by linarith), neg_pos]
    _ ↔ a ^ 2 - 4 * b * (1 - x) < a ^ 2 := by rw [sub_neg, Real.sqrt_lt' ha]
    _ ↔ 0 < -b * (x - 1) := by constructor <;> intro h <;> linarith
    _ ↔ 1 < x := by rw [mul_pos_iff_of_pos_left (neg_pos.2 hb), sub_pos]

theorem discriminant_real {rnom : ℝ} (hrnom : rnom ≠ 0) (rrtd : ℝ) :
    z2 realNum + z3 realNum rnom * rrtd = 3.9083e-3 ^ 2 - 4 * -5.775e-7 * (1 - rrtd / rnom) := by
  simp only [z2, z3, realNum_fsub, realNum_fmul, realNum_fdiv, realNum_lit_cvdA, realNum_lit_cvdB,
    realNum_lit_intLit]
  push_cast
  field_simp
  ring

theorem cvd_real {rnom : ℝ} (hrnom : rnom ≠ 0) (rrtd : ℝ) :
    cvd realNum rrtd rnom = primaryRoot 3.9083e-3 (-5.775e-7) (rrtd / rnom) := by
  simp only [cvd, z1, z4, realNum_fdiv, realNum_fadd, realNum_fsqrt, realNum_fmul, realNum_fneg]
  rw [discriminant_real hrnom, realNum_lit_cvdA, realNum_lit_cvdB, realNum_lit_intLit, Nat.cast_ofNat,
    ← sub_eq_add_neg, primaryRoot]

/-- Settles O48: the primary model is the root of the quadratic in `Rrtd / Rnom`. -/
theorem primaryModelSolvesTheQuadratic : Obligations.PrimaryModelSolvesTheQuadratic := by
  intro rrtd rnom hrnom hdisc
  rw [discriminant_real hrnom.ne'] at hdisc
  rw [cvd_real hrnom.ne', primaryRoot_spec (by norm_num) hdisc, mul_div_cancel₀ _ hrnom.ne',
    primaryRoot_pos_iff (by norm_num) (by norm_num), one_lt_div hrnom]
  exact ⟨rfl, Iff.rfl⟩

/-! ## Magnitudes in a format (R121)

The encodings up to `infBits` are those without a sign, in the order of their numbers. -/

/-- The significand of an encoding. -/
def Format.significand (f : Format) (p : Nat) : Nat :=
  if p / 2 ^ f.mw = 0 then p % 2 ^ f.mw else 2 ^ f.mw + p % 2 ^ f.mw

/-- The place of the last bit of the significand, counted from the least of the format. -/
def Format.place (f : Format) (p : Nat) : Nat := p / 2 ^ f.mw - 1

/-- The number that an encoding without a sign is, in units of the least number of the format; from `infBits`
on, the number that it would be, were the exponent not bounded. -/
def Format.units (f : Format) (p : Nat) : Nat := f.significand p * 2 ^ f.place p

/-- The rational number that an encoding without a sign is. -/
def Format.magnitude (f : Format) (p : Nat) : ℚ := f.units p * (2 : ℚ) ^ f.qmin

section Magnitude

variable (f : Format)

/-- A significand and a place are those of a number of the format, the significand rounded up to
`2 ^ (mw + 1)` allowed. -/
structure Format.Fits (k s : Nat) : Prop where
  le : s ≤ 2 ^ (f.mw + 1)
  normal : k = 0 ∨ 2 ^ f.mw ≤ s

theorem Format.exists_fits (p : Nat) : ∃ k s, f.Fits k s ∧ s < 2 ^ (f.mw + 1) ∧ p = k * 2 ^ f.mw + s := by
  have hpos : 0 < 2 ^ f.mw := by positivity
  have hsplit := Nat.div_add_mod' p (2 ^ f.mw)
  have hmod := Nat.mod_lt p hpos
  have hpow : 2 ^ (f.mw + 1) = 2 ^ f.mw + 2 ^ f.mw := by ring
  cases hdiv : p / 2 ^ f.mw with
  | zero => exact ⟨0, p % 2 ^ f.mw, ⟨by omega, .inl rfl⟩, by omega, by rw [hdiv] at hsplit; omega⟩
  | succ k =>
    rw [hdiv, Nat.succ_mul] at hsplit
    exact ⟨k, 2 ^ f.mw + p % 2 ^ f.mw, ⟨by omega, .inr (by omega)⟩, by omega, by omega⟩

variable {f}

theorem Format.units_of_fits {k s : Nat} (h : f.Fits k s) : f.units (k * 2 ^ f.mw + s) = s * 2 ^ k := by
  obtain ⟨hle, hnormal⟩ := h
  have hpos : 0 < 2 ^ f.mw := by positivity
  have hpow : 2 ^ (f.mw + 1) = 2 ^ f.mw * 2 := pow_succ ..
  have hdiv : (k * 2 ^ f.mw + s) / 2 ^ f.mw = k + s / 2 ^ f.mw := by
    rw [add_comm, Nat.add_mul_div_right _ _ hpos, add_comm]
  have hmod : (k * 2 ^ f.mw + s) % 2 ^ f.mw = s % 2 ^ f.mw := Nat.mul_add_mod_self_right ..
  rw [Format.units, Format.significand, Format.place, hdiv, hmod]
  obtain hs | hs | hs : s < 2 ^ f.mw ∨ 2 ^ f.mw ≤ s ∧ s < 2 ^ f.mw * 2 ∨ s = 2 ^ f.mw * 2 := by omega
  · obtain rfl : k = 0 := by omega
    simp [Nat.div_eq_of_lt hs, Nat.mod_eq_of_lt hs]
  · have hone : s / 2 ^ f.mw = 1 := Nat.div_eq_of_lt_le (by omega) (by omega)
    have hrest : 2 ^ f.mw + s % 2 ^ f.mw = s := by
      have := Nat.div_add_mod s (2 ^ f.mw)
      rwa [hone, mul_one] at this
    simp [hone, hrest]
  · subst hs
    simp [Nat.mul_div_cancel_left _ hpos]
    ring

theorem Format.magnitude_of_fits {k s : Nat} (h : f.Fits k s) :
    f.magnitude (k * 2 ^ f.mw + s) = s * (2 : ℚ) ^ (f.qmin + k) := by
  rw [Format.magnitude, Format.units_of_fits h, zpow_add₀ two_ne_zero, zpow_natCast]
  push_cast
  ring

theorem Format.units_strictMono : StrictMono f.units := by
  refine strictMono_nat_of_lt_succ fun p => ?_
  obtain ⟨k, s, hfits, hlt, rfl⟩ := f.exists_fits p
  have hsucc : f.Fits k (s + 1) := ⟨hlt, hfits.normal.imp_right (Nat.le_succ_of_le ·)⟩
  rw [add_assoc, Format.units_of_fits hfits, Format.units_of_fits hsucc]
  exact Nat.mul_lt_mul_of_pos_right (Nat.lt_succ_self s) (by positivity)

theorem Format.magnitude_strictMono : StrictMono f.magnitude := fun _ _ h =>
  mul_lt_mul_of_pos_right (by exact_mod_cast Format.units_strictMono h) (by positivity)

theorem Format.magnitude_nonneg (p : Nat) : 0 ≤ f.magnitude p := by unfold Format.magnitude; positivity

@[simp] theorem Format.magnitude_zero : f.magnitude 0 = 0 := by
  simp [Format.magnitude, Format.units, Format.significand]

/-! ### The nearest number -/

/-- A multiple of `u` at most half of `u` away from `x` is the nearest. -/
theorem abs_sub_le_of_half {u x : ℚ} {s : ℤ} (h : |s * u - x| ≤ u / 2) (j : ℤ) :
    |s * u - x| ≤ |j * u - x| := by
  obtain rfl | hne := eq_or_ne j s
  · rfl
  have hu : 0 ≤ u := by linarith [abs_nonneg (s * u - x)]
  have hone : (1 : ℚ) ≤ |(j : ℚ) - s| := by exact_mod_cast Int.one_le_abs (sub_ne_zero.2 hne)
  have hapart : u ≤ |j * u - s * u| := by
    rw [← sub_mul, abs_mul, abs_of_nonneg hu]
    exact le_mul_of_one_le_left hu hone
  have htri : |j * u - s * u| ≤ |j * u - x| + |x - s * u| := abs_sub_le ..
  rw [abs_sub_comm x] at htri
  linarith

/-- A number of the format at most half of its last place away from `x` is the nearest, if `x` has that place:
the numbers with a lower place lie below `2 ^ mw` units of it. -/
theorem Format.magnitude_nearest {k s : Nat} {x : ℚ} (hfits : f.Fits k s)
    (hhalf : |s * (2 : ℚ) ^ (f.qmin + k) - x| ≤ (2 : ℚ) ^ (f.qmin + k) / 2)
    (hplace : k = 0 ∨ 2 ^ f.mw * (2 : ℚ) ^ (f.qmin + k) ≤ x) (p : Nat) :
    |f.magnitude (k * 2 ^ f.mw + s) - x| ≤ |f.magnitude p - x| := by
  have hmultiple (j : Nat) :
      |s * (2 : ℚ) ^ (f.qmin + k) - x| ≤ |j * (2 : ℚ) ^ (f.qmin + k) - x| :=
    abs_sub_le_of_half (s := s) hhalf j
  obtain ⟨k', s', hfits', hlt, rfl⟩ := f.exists_fits p
  rw [Format.magnitude_of_fits hfits, Format.magnitude_of_fits hfits']
  obtain hk | hk := le_or_gt k k'
  · obtain ⟨d, rfl⟩ := Nat.exists_eq_add_of_le hk
    have hunits : s' * (2 : ℚ) ^ (f.qmin + (k + d : Nat)) = (s' * 2 ^ d : Nat) * (2 : ℚ) ^ (f.qmin + k) := by
      rw [Nat.cast_add, ← add_assoc, zpow_add₀ two_ne_zero, zpow_natCast]
      push_cast
      ring
    rw [hunits]
    exact hmultiple _
  · have hx : 2 ^ f.mw * (2 : ℚ) ^ (f.qmin + k) ≤ x := hplace.resolve_left (by omega)
    have hlow : s' * (2 : ℚ) ^ (f.qmin + k') ≤ 2 ^ f.mw * (2 : ℚ) ^ (f.qmin + k) :=
      calc s' * (2 : ℚ) ^ (f.qmin + k')
        _ ≤ 2 ^ (f.mw + 1) * (2 : ℚ) ^ (f.qmin + k') := by gcongr; exact_mod_cast hlt.le
        _ = 2 ^ f.mw * (2 : ℚ) ^ (f.qmin + (k' + 1 : Nat)) := by
          rw [pow_succ, Nat.cast_succ, ← add_assoc, zpow_add_one₀ two_ne_zero]
          ring
        _ ≤ 2 ^ f.mw * (2 : ℚ) ^ (f.qmin + k) := by gcongr <;> [norm_num; omega]
    refine (hmultiple (2 ^ f.mw)).trans ?_
    push_cast
    rw [abs_of_nonpos (by linarith), abs_of_nonpos (by linarith)]
    linarith

end Magnitude

/-! ### Rounding

Of a result that is known exactly, as that of a sum, a product or a conversion is: it has no sticky bit. -/

/-- The last place that an exact result `m * 2 ^ e` is rounded to. -/
def Format.roundPlace (f : Format) (m : Nat) (e : Int) : Int :=
  max (e + (Nat.log2 m + 1 : Nat) - (f.mw + 1 : Nat)) f.qmin

/-- The significand that an exact result `m * 2 ^ e` is rounded to. -/
def Format.roundSig (f : Format) (m : Nat) (e : Int) : Nat :=
  let q := f.roundPlace m e
  if q ≤ e then m * 2 ^ (e - q).toNat
  else roundNearest (m / 2 ^ (q - e).toNat) (m % 2 ^ (q - e).toNat) (q - e).toNat false

/-- The encoding that an exact result `m * 2 ^ e` is rounded to, were the exponent not bounded. -/
def Format.code (f : Format) (m : Nat) (e : Int) : Nat :=
  if m = 0 then 0 else (f.roundPlace m e - f.qmin).toNat * 2 ^ f.mw + f.roundSig m e

section Rounding

variable {f : Format}

theorem Format.round_eq (neg : Bool) (m : Nat) (e : Int) :
    f.round neg m e false = f.signBits neg + min f.infBits (f.code m e) := by
  unfold Format.round Format.code
  split
  · simp
  · rfl

theorem Format.round_nonneg_le (m : Nat) (e : Int) (sticky : Bool) : f.round false m e sticky ≤ f.infBits := by
  unfold Format.round
  split <;> simp [Format.signBits]

/-- Rounding to an integer is off by half at most. -/
theorem roundNearest_half (hi : Nat) {lo i : Nat} (hlo : lo < 2 ^ (i + 1)) :
    |(roundNearest hi lo (i + 1) false : ℚ) * 2 ^ (i + 1) - (hi * 2 ^ (i + 1) + lo)| ≤ 2 ^ (i + 1) / 2 := by
  have hnonneg : (0 : ℚ) ≤ lo := lo.cast_nonneg
  have hlt : (lo : ℚ) < 2 ^ (i + 1) := by exact_mod_cast hlo
  have hpow : (2 : ℚ) ^ (i + 1) = 2 * 2 ^ i := pow_succ' ..
  simp only [roundNearest, Nat.add_sub_cancel]
  rw [abs_le]
  split
  next hup =>
    have hge : (2 ^ i : ℚ) ≤ lo := by exact_mod_cast hup.elim le_of_lt fun h => h.1.ge
    push_cast
    constructor <;> linarith
  next hdown =>
    have hle : (lo : ℚ) ≤ 2 ^ i := by exact_mod_cast not_lt.1 fun h => hdown (.inl h)
    constructor <;> linarith

theorem roundNearest_divMod_half (m : Nat) {j : Nat} (hj : j ≠ 0) :
    |(roundNearest (m / 2 ^ j) (m % 2 ^ j) j false : ℚ) * 2 ^ j - m| ≤ 2 ^ j / 2 := by
  obtain ⟨i, rfl⟩ := Nat.exists_eq_succ_of_ne_zero hj
  have hhalf := roundNearest_half (m / 2 ^ (i + 1)) (Nat.mod_lt m (show 0 < 2 ^ (i + 1) by positivity))
  have hm : ((m / 2 ^ (i + 1) : Nat) * 2 ^ (i + 1) + (m % 2 ^ (i + 1) : Nat) : ℚ) = m := by
    exact_mod_cast Nat.div_add_mod' m (2 ^ (i + 1))
  rwa [hm] at hhalf

theorem Format.qmin_le_roundPlace (m : Nat) (e : Int) : f.qmin ≤ f.roundPlace m e := le_max_right ..

theorem Format.roundSig_half (m : Nat) (e : Int) :
    |f.roundSig m e * (2 : ℚ) ^ f.roundPlace m e - m * 2 ^ e| ≤ 2 ^ f.roundPlace m e / 2 := by
  have hscale {a b : ℤ} (h : a ≤ b) : (2 : ℚ) ^ b = 2 ^ (b - a).toNat * 2 ^ a := by
    rw [← zpow_natCast, Int.toNat_of_nonneg (by omega), ← zpow_add₀ two_ne_zero, Int.sub_add_cancel]
  simp only [Format.roundSig]
  split
  next hle =>
    rw [hscale hle]
    push_cast
    rw [← mul_assoc, sub_self, abs_zero]
    positivity
  next hgt =>
    have hhalf := roundNearest_divMod_half m (j := (f.roundPlace m e - e).toNat) (by omega)
    rw [hscale (by omega : e ≤ f.roundPlace m e), ← mul_assoc, ← sub_mul, abs_mul,
      abs_of_pos (by positivity : (0 : ℚ) < 2 ^ e), mul_div_right_comm]
    gcongr

/-- The exact result has the place that it is rounded to. -/
theorem Format.roundPlace_spec {m : Nat} (hm : m ≠ 0) (e : Int) :
    m * (2 : ℚ) ^ e < 2 ^ (f.mw + 1) * (2 : ℚ) ^ f.roundPlace m e ∧
      (f.roundPlace m e = f.qmin ∨ 2 ^ f.mw * (2 : ℚ) ^ f.roundPlace m e ≤ m * (2 : ℚ) ^ e) := by
  have hlog : (2 : ℚ) ^ Nat.log2 m ≤ m := by exact_mod_cast Nat.log2_self_le hm
  have hlog' : (m : ℚ) < 2 ^ (Nat.log2 m + 1) := by exact_mod_cast Nat.lt_log2_self
  constructor
  · calc m * (2 : ℚ) ^ e
      _ < 2 ^ (Nat.log2 m + 1) * (2 : ℚ) ^ e := by gcongr
      _ = 2 ^ (f.mw + 1) * (2 : ℚ) ^ (e + (Nat.log2 m + 1 : Nat) - (f.mw + 1 : Nat)) := by
        rw [← zpow_natCast, ← zpow_natCast, ← zpow_add₀ two_ne_zero, ← zpow_add₀ two_ne_zero]
        congr 1
        omega
      _ ≤ 2 ^ (f.mw + 1) * (2 : ℚ) ^ f.roundPlace m e := by
        gcongr
        · norm_num
        · exact le_max_left ..
  · refine (max_choice _ _).symm.imp_right fun hplace => ?_
    calc 2 ^ f.mw * (2 : ℚ) ^ f.roundPlace m e
      _ = 2 ^ Nat.log2 m * (2 : ℚ) ^ e := by
        rw [Format.roundPlace, hplace, ← zpow_natCast, ← zpow_natCast, ← zpow_add₀ two_ne_zero,
          ← zpow_add₀ two_ne_zero]
        congr 1
        omega
      _ ≤ m * (2 : ℚ) ^ e := by gcongr

theorem Format.code_fits {m : Nat} (hm : m ≠ 0) (e : Int) :
    f.Fits (f.roundPlace m e - f.qmin).toNat (f.roundSig m e) := by
  obtain ⟨hlt, hplace⟩ := f.roundPlace_spec hm e
  have hhalf := abs_le.1 (f.roundSig_half m e)
  have hpos : (0 : ℚ) < 2 ^ f.roundPlace m e := by positivity
  constructor
  · have : (f.roundSig m e : ℚ) < 2 ^ (f.mw + 1) + 1 :=
      lt_of_mul_lt_mul_right (by linarith) hpos.le
    exact Nat.lt_succ_iff.1 (by exact_mod_cast this)
  · refine hplace.imp (by omega) fun hge => ?_
    have : (2 ^ f.mw : ℚ) < f.roundSig m e + 1 :=
      lt_of_mul_lt_mul_right (by linarith) hpos.le
    exact Nat.lt_succ_iff.1 (by exact_mod_cast this)

theorem Format.qmin_add_roundPlace (m : Nat) (e : Int) :
    f.qmin + (f.roundPlace m e - f.qmin).toNat = f.roundPlace m e := by
  have := f.qmin_le_roundPlace m e
  omega

theorem Format.magnitude_code {m : Nat} (hm : m ≠ 0) (e : Int) :
    f.magnitude (f.code m e) = f.roundSig m e * (2 : ℚ) ^ f.roundPlace m e := by
  rw [Format.code, if_neg hm, Format.magnitude_of_fits (Format.code_fits hm e), Format.qmin_add_roundPlace]

/-- Rounding gives the nearest number. -/
theorem Format.code_nearest (m : Nat) (e : Int) (p : Nat) :
    |f.magnitude (f.code m e) - m * 2 ^ e| ≤ |f.magnitude p - m * 2 ^ e| := by
  obtain rfl | hm := eq_or_ne m 0
  · simp [Format.code]
  rw [Format.code, if_neg hm]
  refine Format.magnitude_nearest (Format.code_fits hm e) ?_ ?_ p <;> rw [Format.qmin_add_roundPlace]
  · exact f.roundSig_half m e
  · exact (f.roundPlace_spec hm e).2.imp_left (by omega)

/-- A result that is not above a number of the format is not rounded above it. -/
theorem Format.code_le {m : Nat} {e : Int} {p : Nat} (h : m * (2 : ℚ) ^ e ≤ f.magnitude p) :
    f.code m e ≤ p := by
  by_contra! hlt
  have hmono := f.magnitude_strictMono hlt
  have hnear := f.code_nearest m e p
  rw [abs_of_nonneg (by linarith), abs_of_nonneg (by linarith)] at hnear
  linarith

/-- A result that has the last place that it is rounded to is exact. -/
theorem Format.magnitude_code_of_le {m : Nat} {e : Int} (h : f.roundPlace m e ≤ e) :
    f.magnitude (f.code m e) = m * 2 ^ e := by
  obtain rfl | hm := eq_or_ne m 0
  · simp [Format.code]
  rw [Format.magnitude_code hm, Format.roundSig, if_pos h, Nat.cast_mul, mul_assoc]
  push_cast
  rw [← zpow_natCast, ← zpow_add₀ two_ne_zero]
  congr 2
  omega

end Rounding

/-! ## Reading an encoding -/

/-- An encoding without its sign. -/
def Format.unsigned (f : Format) (bits : Nat) : Nat := bits % 2 ^ (f.ew + f.mw)

/-- The sign of an encoding. -/
def Format.isNeg (f : Format) (bits : Nat) : Bool := bits / 2 ^ (f.ew + f.mw) % 2 == 1

/-- The sign as a factor. -/
def signFactor (neg : Bool) : ℚ := if neg then -1 else 1

@[simp] theorem signFactor_false : signFactor false = 1 := rfl
@[simp] theorem signFactor_true : signFactor true = -1 := rfl

@[simp] theorem abs_signFactor_mul (neg : Bool) (x : ℚ) : |signFactor neg * x| = |x| := by
  cases neg <;> simp

theorem signFactor_bne (s t : Bool) : signFactor (s != t) = signFactor s * signFactor t := by
  cases s <;> cases t <;> simp

section Unpack

variable {f : Format}

theorem Format.infBits_lt : f.infBits < 2 ^ (f.ew + f.mw) := by
  have hpos : 0 < 2 ^ f.ew := by positivity
  rw [Format.infBits, pow_add]
  exact Nat.mul_lt_mul_of_pos_right (by omega) (by positivity)

/-- Below `infBits` an encoding is a number, there it is an infinity, and above a NaN. -/
theorem Format.unpack_eq (bits : Nat) :
    f.unpack bits =
      if f.unsigned bits < f.infBits then
        .fin (f.isNeg bits) (f.significand (f.unsigned bits)) (f.qmin + f.place (f.unsigned bits))
      else if f.unsigned bits = f.infBits then .inf (f.isNeg bits) else .nan := by
  have hpos : 0 < 2 ^ f.mw := by positivity
  have hex : bits / 2 ^ f.mw % 2 ^ f.ew = f.unsigned bits / 2 ^ f.mw := by
    rw [Format.unsigned, add_comm, pow_add, Nat.mod_mul_right_div_self]
  have hfrac : bits % 2 ^ f.mw = f.unsigned bits % 2 ^ f.mw :=
    (Nat.mod_mod_of_dvd _ (pow_dvd_pow 2 (by omega))).symm
  have hdiv : f.unsigned bits / 2 ^ f.mw < 2 ^ f.ew := by rw [← hex]; exact Nat.mod_lt _ (by positivity)
  have hfinite : f.unsigned bits < f.infBits ↔ f.unsigned bits / 2 ^ f.mw ≠ 2 ^ f.ew - 1 := by
    rw [Format.infBits, ← Nat.div_lt_iff_lt_mul hpos]
    omega
  have hinf (h : f.unsigned bits / 2 ^ f.mw = 2 ^ f.ew - 1) :
      f.unsigned bits = f.infBits ↔ f.unsigned bits % 2 ^ f.mw = 0 := by
    have := Nat.div_add_mod' (f.unsigned bits) (2 ^ f.mw)
    rw [Format.infBits, ← h]
    omega
  simp only [Format.unpack, hex, hfrac, hfinite]
  by_cases hmax : f.unsigned bits / 2 ^ f.mw = 2 ^ f.ew - 1
  · simp [hmax, hinf hmax, Format.isNeg]
  · rw [if_neg hmax, if_pos hmax]
    by_cases hzero : f.unsigned bits / 2 ^ f.mw = 0
    all_goals simp [hzero, Format.significand, Format.place, Format.isNeg]

theorem Format.toRat_fin (bits : Nat) :
    (FloatVal.fin (f.isNeg bits) (f.significand (f.unsigned bits)) (f.qmin + f.place (f.unsigned bits))).toRat =
      some (signFactor (f.isNeg bits) * f.magnitude (f.unsigned bits)) := by
  rw [Format.magnitude, Format.units, FloatVal.toRat, zpow_add₀ two_ne_zero, zpow_natCast, signFactor]
  congr 1
  push_cast
  ring

theorem Format.toRat_unpack_eq_some_iff {bits : Nat} {v : ℚ} :
    (f.unpack bits).toRat = some v ↔
      f.unsigned bits < f.infBits ∧ v = signFactor (f.isNeg bits) * f.magnitude (f.unsigned bits) := by
  rw [Format.unpack_eq]
  split_ifs with hfin hinf
  · rw [Format.toRat_fin, Option.some_inj]
    simp [hfin, eq_comm]
  all_goals simp [FloatVal.toRat, hfin]

/-! ### The encodings that the operations build -/

theorem Format.unsigned_signBits_add (neg : Bool) {p : Nat} (hp : p ≤ f.infBits) :
    f.unsigned (f.signBits neg + p) = p := by
  have hlt := hp.trans_lt f.infBits_lt
  cases neg <;> simp [Format.unsigned, Format.signBits, Nat.mod_eq_of_lt hlt]

theorem Format.isNeg_signBits_add (neg : Bool) {p : Nat} (hp : p ≤ f.infBits) :
    f.isNeg (f.signBits neg + p) = neg := by
  have hlt := hp.trans_lt f.infBits_lt
  cases neg <;> simp [Format.isNeg, Format.signBits, Nat.div_eq_of_lt hlt, Nat.add_div_left]

theorem Format.unpack_signBits_add (neg : Bool) {p : Nat} (hp : p < f.infBits) :
    f.unpack (f.signBits neg + p) = .fin neg (f.significand p) (f.qmin + f.place p) := by
  rw [Format.unpack_eq, f.unsigned_signBits_add neg hp.le, f.isNeg_signBits_add neg hp.le, if_pos hp]

theorem Format.unpack_signBits_add_infBits (neg : Bool) : f.unpack (f.signBits neg + f.infBits) = .inf neg := by
  rw [Format.unpack_eq, f.unsigned_signBits_add neg le_rfl, f.isNeg_signBits_add neg le_rfl, if_neg (lt_irrefl _),
    if_pos rfl]

theorem Format.toRat_unpack_round {neg : Bool} {m : Nat} {e : Int} {v : ℚ}
    (h : (f.unpack (f.round neg m e false)).toRat = some v) : v = signFactor neg * f.magnitude (f.code m e) := by
  obtain ⟨hlt, hv⟩ := Format.toRat_unpack_eq_some_iff.1 h
  rw [f.round_eq, f.unsigned_signBits_add neg (min_le_left ..)] at hlt hv
  rw [hv, f.isNeg_signBits_add neg (min_le_left ..), min_eq_right (by omega)]

/-! ## Correct rounding of sums and products (R121) -/

/-- An encoding is what an operation rounds the number `x` to, with the sign of `x` where that is not 0. -/
def Format.IsRounding (f : Format) (bits : Nat) (x : ℚ) : Prop :=
  ∃ neg m e, bits = f.round neg m e false ∧ x = signFactor neg * (m * (2 : ℚ) ^ (e : ℤ))

/-- No number of the format is nearer: without the signs this is `code_nearest`, and another sign only takes a
number further away. -/
theorem Format.IsRounding.nearest {bits z : Nat} {x v vz : ℚ} (h : f.IsRounding bits x)
    (hv : (f.unpack bits).toRat = some v) (hz : (f.unpack z).toRat = some vz) : |v - x| ≤ |vz - x| := by
  obtain ⟨neg, m, e, rfl, rfl⟩ := h
  obtain ⟨-, rfl⟩ := Format.toRat_unpack_eq_some_iff.1 hz
  rw [Format.toRat_unpack_round hv, ← mul_sub, abs_signFactor_mul]
  calc |f.magnitude (f.code m e) - m * 2 ^ e|
    _ ≤ |f.magnitude (f.unsigned z) - m * 2 ^ e| := f.code_nearest m e _
    _ = abs (|signFactor (f.isNeg z) * f.magnitude (f.unsigned z)| - |signFactor neg * (m * 2 ^ e)|) := by
      rw [abs_signFactor_mul, abs_signFactor_mul, abs_of_nonneg (f.magnitude_nonneg _),
        abs_of_nonneg (by positivity : (0 : ℚ) ≤ m * 2 ^ e)]
    _ ≤ _ := abs_abs_sub_abs_le_abs_sub ..

theorem scaled_mul (neg : Bool) (m : Nat) {e u : Int} (h : u ≤ e) :
    scaled neg m e u * (2 : ℚ) ^ u = signFactor neg * (m * 2 ^ e) := by
  have hpow : (2 : ℚ) ^ e = 2 ^ (e - u).toNat * 2 ^ u := by
    rw [← zpow_natCast, Int.toNat_of_nonneg (by omega), ← zpow_add₀ two_ne_zero, Int.sub_add_cancel]
  rw [hpow]
  cases neg <;> simp [scaled, mul_assoc]

theorem FloatVal.toRat_eq_some_iff {x : FloatVal} {v : ℚ} :
    x.toRat = some v ↔ ∃ neg m e, x = .fin neg m e ∧ v = signFactor neg * (m * (2 : ℚ) ^ e) := by
  cases x <;> simp [FloatVal.toRat, signFactor, eq_comm]

theorem Format.add_isRounding {a b : Nat} {va vb : ℚ} (ha : (f.unpack a).toRat = some va)
    (hb : (f.unpack b).toRat = some vb) : f.IsRounding (f.add a b) (va + vb) := by
  obtain ⟨s, m, e, hua, rfl⟩ := FloatVal.toRat_eq_some_iff.1 ha
  obtain ⟨t, n, d, hub, rfl⟩ := FloatVal.toRat_eq_some_iff.1 hb
  rw [← scaled_mul s m (min_le_left e d), ← scaled_mul t n (min_le_right e d), ← add_mul]
  simp only [Format.add, hua, hub]
  rw [← Int.cast_add]
  generalize scaled s m e (min e d) + scaled t n d (min e d) = v
  split
  next hzero => exact ⟨s && t, 0, 0, by simp [Format.round], by simp [hzero]⟩
  next =>
    refine ⟨_, _, _, rfl, ?_⟩
    have habs : (v : ℚ) = signFactor (decide (v < 0)) * v.natAbs := by
      obtain h | h := lt_or_ge v 0
      · simp [h, abs_of_neg]
      · simp [h.not_gt, abs_of_nonneg h]
    rw [← mul_assoc, ← habs]

theorem Format.mul_isRounding {a b : Nat} {va vb : ℚ} (ha : (f.unpack a).toRat = some va)
    (hb : (f.unpack b).toRat = some vb) : f.IsRounding (f.mul a b) (va * vb) := by
  obtain ⟨s, m, e, hua, rfl⟩ := FloatVal.toRat_eq_some_iff.1 ha
  obtain ⟨t, n, d, hub, rfl⟩ := FloatVal.toRat_eq_some_iff.1 hb
  refine ⟨s != t, m * n, e + d, by simp only [Format.mul, hua, hub], ?_⟩
  rw [signFactor_bne, zpow_add₀ two_ne_zero]
  push_cast
  ring

/-! ## The comparison with a zero -/

theorem Format.gt_zero_iff {a z : Nat} {t : Bool} {d : Int} (hz : f.unpack z = .fin t 0 d) :
    f.gt a z = true ↔ f.unpack a = .inf false ∨ ∃ v, (f.unpack a).toRat = some v ∧ 0 < v := by
  simp only [Format.gt, hz]
  cases f.unpack a with
  | nan => simp [FloatVal.toRat]
  | inf s => simp [FloatVal.toRat]
  | fin s m e =>
    have hzero (u : Int) : scaled t 0 d u = 0 := by simp [scaled]
    have hvalue := scaled_mul s m (min_le_left e d)
    have hsign : 0 < scaled s m e (min e d) ↔ (0 : ℚ) < signFactor s * (m * 2 ^ e) := by
      rw [← hvalue, mul_pos_iff_of_pos_right (by positivity), Int.cast_pos]
    simp [hzero, hsign, FloatVal.toRat_eq_some_iff]

end Unpack

section Signless

variable {f : Format}

/-! ## Encodings without a sign

They are those up to `infBits`, the encoding of `+inf`. -/

theorem Format.unpack_of_lt {p : Nat} (hp : p < f.infBits) :
    f.unpack p = .fin false (f.significand p) (f.qmin + f.place p) := by
  simpa [Format.signBits] using f.unpack_signBits_add false hp

theorem Format.unpack_infBits : f.unpack f.infBits = .inf false := by
  simpa [Format.signBits] using f.unpack_signBits_add_infBits false

theorem Format.toRat_unpack_of_lt {p : Nat} (hp : p < f.infBits) :
    (f.unpack p).toRat = some (f.magnitude p) := by
  rw [Format.toRat_unpack_eq_some_iff]
  have hunsigned := f.unsigned_signBits_add false hp.le
  have hneg := f.isNeg_signBits_add false hp.le
  simp only [Format.signBits, Bool.false_eq_true, if_false, zero_add] at hunsigned hneg
  simp [hunsigned, hneg, hp]

theorem Format.significand_eq_zero {p : Nat} : f.significand p = 0 ↔ p = 0 := by
  have hpos : 0 < 2 ^ f.mw := by positivity
  have hsplit := Nat.div_add_mod' p (2 ^ f.mw)
  unfold Format.significand
  constructor
  · intro h
    split_ifs at h with hdiv
    · rw [hdiv] at hsplit
      omega
    · omega
  · rintro rfl
    simp

/-! ### Products and quotients -/

theorem Format.mul_of_lt {a b : Nat} (ha : a < f.infBits) (hb : b < f.infBits) : f.mul a b ≤ f.infBits := by
  simp only [Format.mul, Format.unpack_of_lt ha, Format.unpack_of_lt hb]
  exact f.round_nonneg_le ..

theorem Format.infBits_mul {b : Nat} (hb : b ≤ f.infBits) (h0 : b ≠ 0) : f.mul f.infBits b = f.infBits := by
  obtain rfl | hlt := eq_or_lt_of_le hb
  · simp [Format.mul, Format.unpack_infBits, Format.signBits]
  · simp [Format.mul, Format.unpack_infBits, Format.unpack_of_lt hlt, Format.significand_eq_zero, h0,
      Format.signBits]

theorem Format.mul_infBits {a : Nat} (ha : a ≤ f.infBits) (h0 : a ≠ 0) : f.mul a f.infBits = f.infBits := by
  obtain rfl | hlt := eq_or_lt_of_le ha
  · exact f.infBits_mul le_rfl h0
  · simp [Format.mul, Format.unpack_infBits, Format.unpack_of_lt hlt, Format.significand_eq_zero, h0,
      Format.signBits]

theorem Format.mul_zero {a : Nat} (ha : a < f.infBits) : f.mul a 0 = 0 := by
  have h0 : f.significand 0 = 0 := Format.significand_eq_zero.2 rfl
  simp [Format.mul, Format.unpack_of_lt ha, Format.unpack_of_lt (Nat.zero_lt_of_lt ha), h0, Format.round,
    Format.signBits]

/-- A product of numbers without a sign has none, but zero times infinity. -/
theorem Format.mul_le {a b : Nat} (ha : a ≤ f.infBits) (hb : b ≤ f.infBits) (hab : a = f.infBits → b ≠ 0)
    (hba : b = f.infBits → a ≠ 0) : f.mul a b ≤ f.infBits := by
  obtain rfl | halt := eq_or_lt_of_le ha
  · exact (f.infBits_mul hb (hab rfl)).le
  obtain rfl | hblt := eq_or_lt_of_le hb
  · exact (f.mul_infBits ha (hba rfl)).le
  · exact f.mul_of_lt halt hblt

theorem Format.div_le {a b : Nat} (ha : a ≤ f.infBits) (hb : b < f.infBits) (h0 : b ≠ 0) :
    f.div a b ≤ f.infBits := by
  have hsig : f.significand b ≠ 0 := mt Format.significand_eq_zero.1 h0
  obtain rfl | hlt := eq_or_lt_of_le ha
  · simp [Format.div, Format.unpack_infBits, Format.unpack_of_lt hb, Format.signBits]
  · simp only [Format.div, Format.unpack_of_lt hlt, Format.unpack_of_lt hb, if_neg hsig]
    exact f.round_nonneg_le ..

/-! ### Powers -/

/-- What a power of `r` keeps, so that no product with `r` is one of zero and infinity. -/
structure Format.IsPower (f : Format) (r q : Nat) : Prop where
  le : q ≤ f.infBits
  of_inf : q = f.infBits → r ≠ 0
  of_zero : q = 0 → r ≠ f.infBits

theorem Format.IsPower.self {r : Nat} (hr : r ≤ f.infBits) (h0 : f.infBits ≠ 0) : f.IsPower r r :=
  ⟨hr, fun h => h ▸ h0, fun h => h ▸ h0.symm⟩

theorem Format.IsPower.mul {r q : Nat} (hq : f.IsPower r q) (hr : r ≤ f.infBits) (h0 : f.infBits ≠ 0) :
    f.IsPower r (f.mul q r) := by
  obtain ⟨hle, hinf, hzero⟩ := hq
  refine ⟨f.mul_le hle hr hinf fun h hz => hzero hz h, ?_, ?_⟩
  · rintro h rfl
    rw [f.mul_zero (lt_of_le_of_ne hle fun h => hinf h rfl)] at h
    exact h0 h.symm
  · rintro h rfl
    rw [f.mul_infBits hle fun h => hzero h rfl] at h
    exact h0 h

/-! ### Sums -/

/-- Neither a NaN nor `-inf`. -/
def Format.AboveNegInf (f : Format) (a : Nat) : Prop := f.unpack a ≠ .nan ∧ f.unpack a ≠ .inf true

theorem Format.aboveNegInf_of_le {p : Nat} (hp : p ≤ f.infBits) : f.AboveNegInf p := by
  obtain rfl | hlt := eq_or_lt_of_le hp
  · simp [Format.AboveNegInf, Format.unpack_infBits]
  · simp [Format.AboveNegInf, Format.unpack_of_lt hlt]

/-- A result not below a negative number of the format is not rounded below it, so not to `-inf`. -/
theorem Format.IsRounding.aboveNegInf {bits p : Nat} {x : ℚ} (h : f.IsRounding bits x) (hp : p < f.infBits)
    (hx : -f.magnitude p ≤ x) : f.AboveNegInf bits := by
  obtain ⟨neg, m, e, rfl, rfl⟩ := h
  cases neg with
  | false => exact Format.aboveNegInf_of_le (f.round_nonneg_le ..)
  | true =>
    have hcode : f.code m e ≤ p := f.code_le (by simpa using hx)
    rw [Format.AboveNegInf, f.round_eq, min_eq_right (by omega), f.unpack_signBits_add true (by omega)]
    exact ⟨nofun, nofun⟩

theorem Format.AboveNegInf.add {a b : Nat} (ha : f.AboveNegInf a) (hb : b ≤ f.infBits) :
    f.AboveNegInf (f.add a b) := by
  have hinf : f.AboveNegInf (f.signBits false + f.infBits) := by
    simp [Format.AboveNegInf, f.unpack_signBits_add_infBits]
  obtain ⟨hnan, hneginf⟩ := ha
  cases hua : f.unpack a with
  | nan => exact absurd hua hnan
  | inf s =>
    obtain rfl : s = false := by cases s <;> [rfl; exact absurd hua hneginf]
    obtain rfl | hlt := eq_or_lt_of_le hb
    · simpa [Format.add, hua, Format.unpack_infBits] using hinf
    · simpa [Format.add, hua, Format.unpack_of_lt hlt] using hinf
  | fin s m e =>
    obtain rfl | hlt := eq_or_lt_of_le hb
    · simpa [Format.add, hua, Format.unpack_infBits] using hinf
    obtain ⟨va, hva⟩ : ∃ v, (f.unpack a).toRat = some v := by rw [hua]; exact ⟨_, rfl⟩
    obtain ⟨hfin, hmagnitude⟩ := Format.toRat_unpack_eq_some_iff.1 hva
    refine (f.add_isRounding hva (Format.toRat_unpack_of_lt hlt)).aboveNegInf hfin ?_
    have hva : |va| = f.magnitude (f.unsigned a) := by
      rw [hmagnitude, abs_signFactor_mul, abs_of_nonneg (f.magnitude_nonneg _)]
    linarith [neg_abs_le va, f.magnitude_nonneg b]

end Signless

/-! ## binary32 -/

theorem Format.unpack_mod (f : Format) (bits : Nat) : f.unpack (bits % 2 ^ (f.ew + f.mw + 1)) = f.unpack bits := by
  have hunsigned : f.unsigned (bits % 2 ^ (f.ew + f.mw + 1)) = f.unsigned bits :=
    Nat.mod_mod_of_dvd _ (pow_dvd_pow 2 (Nat.le_succ _))
  have hneg : f.isNeg (bits % 2 ^ (f.ew + f.mw + 1)) = f.isNeg bits := by
    rw [Format.isNeg, pow_succ, Nat.mod_mul_right_div_self, Nat.mod_mod, Format.isNeg]
  rw [Format.unpack_eq, hunsigned, hneg, ← Format.unpack_eq]

/-- A pattern of 32 bits holds the whole encoding. -/
theorem unpack32_ofNat (n : Nat) : fmt32.unpack (BitVec.ofNat 32 n).toNat = fmt32.unpack n := by
  rw [BitVec.toNat_ofNat]
  exact fmt32.unpack_mod n

theorem value32_ofNat (n : Nat) : value32 (BitVec.ofNat 32 n) = (fmt32.unpack n).toRat := by
  rw [value32, unpack32_ofNat]

/-- Settles O53: both operations round the exact result. -/
theorem sumsAndProductsAreNearest : Obligations.SumsAndProductsAreNearest := by
  intro a b z va vb vz ha hb hz
  constructor <;> intro v hv
  · exact (fmt32.add_isRounding ha hb).nearest ((value32_ofNat _).symm.trans hv) hz
  · exact (fmt32.mul_isRounding ha hb).nearest ((value32_ofNat _).symm.trans hv) hz

/-! ### The conversion of a ratio (R123) -/

theorem roundPlace32_le_zero {n : Nat} (hn : n < 2 ^ 15) : fmt32.roundPlace n 0 ≤ 0 := by
  have hlog : Nat.log2 n < 15 := by
    obtain rfl | h0 := eq_or_ne n 0
    · decide
    · exact (Nat.log2_lt h0).2 hn
  refine max_le ?_ (by decide)
  change 0 + (Nat.log2 n + 1 : Nat) - (23 + 1 : Nat) ≤ (0 : ℤ)
  omega

theorem magnitude32_ratioBound : fmt32.magnitude 0x47000000 = 2 ^ 15 := by
  norm_num [Format.magnitude, Format.units, Format.significand, Format.place, Format.qmin, fmt32]

/-- Settles O52: a ratio needs no place below 1, and lies below the number 32768. -/
theorem ratioConversionIsExact : Obligations.RatioConversionIsExact := by
  intro ratio
  have hexact := Format.magnitude_code_of_le (roundPlace32_le_zero ratio.isLt)
  rw [zpow_zero, mul_one] at hexact
  have hcode : fmt32.code ratio.toNat 0 ≤ 0x47000000 := by
    refine Format.code_le ?_
    rw [magnitude32_ratioBound, zpow_zero, mul_one]
    exact_mod_cast ratio.isLt.le
  have hfin : fmt32.code ratio.toNat 0 < fmt32.infBits := hcode.trans_lt (by decide)
  have hround : fmt32.round false ratio.toNat 0 false = fmt32.code ratio.toNat 0 := by
    rw [Format.round_eq, min_eq_right hfin.le]
    exact Nat.zero_add _
  change value32 (BitVec.ofNat 32 (fmt32.round false ratio.toNat 0 false)) = _
  rw [value32_ofNat, hround, Format.toRat_unpack_of_lt hfin, hexact]

/-! ### The branch test (R126) -/

theorem takesCvd_binary32_iff (x : BitVec 32) :
    takesCvd binary32 x = true ↔ fmt32.unpack x.toNat = .inf false ∨ ∃ v, value32 x = some v ∧ 0 < v :=
  have hzero : fmt32.unpack (binary32.lit (intLit 0)).toNat = .fin false 0 fmt32.qmin := by decide
  Format.gt_zero_iff hzero

theorem solve_of_takesCvd {F : Type} {N : Num F} {P : PolyC} {ratio : Ratio} {rref rnom : F}
    (h : takesCvd N (cvd N (resist N ratio rref) rnom) = true) :
    solve N P ratio rref rnom = cvd N (resist N ratio rref) rnom := if_pos h

theorem solve_of_not_takesCvd {F : Type} {N : Num F} {P : PolyC} {ratio : Ratio} {rref rnom : F}
    (h : takesCvd N (cvd N (resist N ratio rref) rnom) = false) :
    solve N P ratio rref rnom = poly N P (resist N ratio rref) rnom := if_neg (ne_true_of_eq_false h)

/-- Settles O51: the test compares with a zero. -/
theorem branchTestIsStrictlyPositive : Obligations.BranchTestIsStrictlyPositive :=
  ⟨takesCvd_binary32_iff, fun _ _ _ _ => ⟨solve_of_takesCvd, solve_of_not_takesCvd⟩⟩

/-! ### SOLVE answers no NaN (R127) -/

theorem toNat_ofNat_of_le {n : Nat} (h : n ≤ fmt32.infBits) : (BitVec.ofNat 32 n).toNat = n :=
  (BitVec.toNat_ofNat n 32).trans (Nat.mod_eq_of_lt (h.trans_lt (by decide)))

theorem pos_of_value32 {x : BitVec 32} {v : ℚ} (h : value32 x = some v) (hv : 0 < v) :
    x.toNat ≠ 0 ∧ x.toNat < fmt32.infBits := by
  obtain ⟨hfin, rfl⟩ := Format.toRat_unpack_eq_some_iff.1 h
  have hpos : fmt32.isNeg x.toNat = false := by
    cases hneg : fmt32.isNeg x.toNat with
    | false => rfl
    | true =>
      rw [hneg, signFactor_true] at hv
      linarith [fmt32.magnitude_nonneg (fmt32.unsigned x.toNat)]
  have hunsigned : fmt32.unsigned x.toNat = x.toNat := by
    have hlt := x.isLt
    simp only [Format.isNeg, fmt32, beq_eq_false_iff_ne] at hpos
    simp only [Format.unsigned, fmt32]
    omega
  rw [hunsigned] at hfin hv
  refine ⟨?_, hfin⟩
  intro h0
  simp [h0] at hv

theorem fdiv32_le {a b : BitVec 32} (ha : a.toNat ≤ fmt32.infBits) (hb : b.toNat < fmt32.infBits)
    (h0 : b.toNat ≠ 0) : (binary32.fdiv a b).toNat ≤ fmt32.infBits :=
  have hdiv := Format.div_le ha hb h0
  (toNat_ofNat_of_le hdiv).trans_le hdiv

theorem fmul32_le {a b : BitVec 32} (ha : a.toNat ≤ fmt32.infBits) (hb : b.toNat ≤ fmt32.infBits)
    (hab : a.toNat = fmt32.infBits → b.toNat ≠ 0) (hba : b.toNat = fmt32.infBits → a.toNat ≠ 0) :
    (binary32.fmul a b).toNat ≤ fmt32.infBits :=
  have hmul := Format.mul_le ha hb hab hba
  (toNat_ofNat_of_le hmul).trans_le hmul

theorem resist32_le (ratio : Ratio) {rref : BitVec 32} (hrref : rref.toNat < fmt32.infBits)
    (h0 : rref.toNat ≠ 0) : (resist binary32 ratio rref).toNat ≤ fmt32.infBits := by
  have hratio : (binary32.ofNat ratio).toNat ≤ fmt32.infBits := by
    have hround := fmt32.round_nonneg_le ratio.toNat 0 false
    exact (toNat_ofNat_of_le hround).trans_le hround
  exact fdiv32_le (fmul32_le hratio hrref.le (fun _ => h0) fun h => absurd h hrref.ne) (by decide) (by decide)

/-- A literal that rounds to a finite positive number. -/
def PosLit32 (l : DecLit) : Prop := (binary32.lit l).toNat ≠ 0 ∧ (binary32.lit l).toNat < fmt32.infBits

theorem PosLit32.fmul_le {l : DecLit} (hl : PosLit32 l) {x : BitVec 32} (hx : x.toNat ≤ fmt32.infBits) :
    (binary32.fmul (binary32.lit l) x).toNat ≤ fmt32.infBits :=
  fmul32_le hl.2.le hx (fun h => absurd h hl.2.ne) fun _ => hl.1

theorem polyRatio32_le {rrtd rnom : BitVec 32} (hrrtd : rrtd.toNat ≤ fmt32.infBits)
    (hrnom : rnom.toNat < fmt32.infBits) (h0 : rnom.toNat ≠ 0) :
    (polyRatio binary32 rrtd rnom).toNat ≤ fmt32.infBits :=
  have hhundred : PosLit32 (intLit 100) := by unfold PosLit32; decide
  fdiv32_le (hhundred.fmul_le hrrtd) hrnom h0

theorem isPower32_fmul {r q : BitVec 32} (hq : fmt32.IsPower r.toNat q.toNat) (hr : r.toNat ≤ fmt32.infBits) :
    fmt32.IsPower r.toNat (binary32.fmul q r).toNat := by
  have hmul := hq.mul hr (by decide)
  change fmt32.IsPower r.toNat (BitVec.ofNat 32 (fmt32.mul q.toNat r.toNat)).toNat
  rwa [toNat_ofNat_of_le hmul.le]

theorem aboveNegInf32_fadd {a b : BitVec 32} (ha : fmt32.AboveNegInf a.toNat) (hb : b.toNat ≤ fmt32.infBits) :
    fmt32.AboveNegInf (binary32.fadd a b).toNat := by
  have hadd := ha.add hb
  rwa [Format.AboveNegInf, ← unpack32_ofNat] at hadd

/-- Where all coefficients but the first are positive, each term of the quintic is a number without a sign or
`+inf`, so the sum never meets `-inf` with `+inf`. -/
theorem quintic32_aboveNegInf {P : PolyC} {r : BitVec 32} (hr : r.toNat ≤ fmt32.infBits)
    (h0 : fmt32.AboveNegInf (binary32.lit P.c0).toNat)
    (hpos : ∀ c ∈ [P.c1, P.c2, P.c3, P.c4, P.c5], PosLit32 c) :
    fmt32.AboveNegInf (quintic binary32 P r).toNat := by
  simp only [List.forall_mem_cons, List.not_mem_nil, false_imp_iff, implies_true, and_true] at hpos
  obtain ⟨h1, h2, h3, h4, h5⟩ := hpos
  have p1 : fmt32.IsPower r.toNat r.toNat := .self hr (by decide)
  have p2 := isPower32_fmul p1 hr
  have p3 := isPower32_fmul p2 hr
  have p4 := isPower32_fmul p3 hr
  have p5 := isPower32_fmul p4 hr
  have t1 := aboveNegInf32_fadd h0 (h1.fmul_le p1.le)
  have t2 := aboveNegInf32_fadd t1 (h2.fmul_le p2.le)
  have t3 := aboveNegInf32_fadd t2 (h3.fmul_le p3.le)
  have t4 := aboveNegInf32_fadd t3 (h4.fmul_le p4.le)
  exact aboveNegInf32_fadd t4 (h5.fmul_le p5.le)

theorem quintic32_printed_aboveNegInf {r : BitVec 32} (hr : r.toNat ≤ fmt32.infBits) :
    fmt32.AboveNegInf (quintic binary32 polyPrinted r).toNat := by
  refine quintic32_aboveNegInf hr ?_ ?_
  · unfold Format.AboveNegInf
    decide
  · unfold PosLit32
    decide

theorem not_isNaN32_of_takesCvd {x : BitVec 32} (h : takesCvd binary32 x = true) : ¬ isNaN32 x := by
  intro hnan
  obtain hinf | ⟨v, hv, -⟩ := (takesCvd_binary32_iff x).1 h
  · exact nomatch hinf.symm.trans hnan
  · rw [value32, hnan] at hv
    exact nomatch hv

/-- Settles O54: a NaN of the primary model does not pass the test, and the polynomial gives none. -/
theorem solveNeverAnswersNaN : Obligations.SolveNeverAnswersNaN := by
  intro ratio rref rnom v w hrref hv hrnom hw
  obtain ⟨hrref0, hrref⟩ := pos_of_value32 hrref hv
  obtain ⟨hrnom0, hrnom⟩ := pos_of_value32 hrnom hw
  cases htest : takesCvd binary32 (cvd binary32 (resist binary32 ratio rref) rnom) with
  | true =>
    rw [solve_of_takesCvd htest]
    exact not_isNaN32_of_takesCvd htest
  | false =>
    rw [solve_of_not_takesCvd htest]
    exact (quintic32_printed_aboveNegInf (polyRatio32_le (resist32_le ratio hrref hrref0) hrnom hrnom0)).1

end Sys2Proof.Machine

/-! PROOF. Family 45_lifecycle_config_access: BEGIN acquires, writes its registers and then the configuration (O25), END
tears down from every LIFE state (O26), SETCONFIG writes CFG and then the configuration (O27), and GETCONFIG answers
what the chip returns (O28). -/

namespace Sys2Proof

/-! ## The words of the operations with a Configuration (R52, R57) -/

/-- The packed Configuration stands in the low bits of the command word. -/
theorem or_packCfg6 (op : BitVec 4) (c : Configuration) :
    cmdWord op 0#16 ||| (packCfg6 c).zeroExtend 32 = cmdWord op ((packCfg6 c).zeroExtend 16) := by
  apply BitVec.eq_of_toNat_eq
  rw [BitVec.toNat_or, cmdWord, cmdWord, BitVec.toNat_append, BitVec.toNat_append _ ((packCfg6 c).zeroExtend 16),
    BitVec.toNat_setWidth_of_le (by decide), BitVec.toNat_setWidth_of_le (by decide)]
  exact congrArg (· ||| (packCfg6 c).toNat) (Nat.or_zero _)

theorem decode_beginOp (c : Configuration) (rref rnom : Flt) :
    decode (.cmd (0x20000000 ||| (packCfg6 c).zeroExtend 32) rref rnom) = .ok (.beginOp c rref rnom) := by
  rw [show (0x20000000 : CmdWord) = cmdWord 2#4 0#16 from rfl, or_packCfg6]
  exact decodeOfEncodeIsTheInstruction (.beginOp c rref rnom) rfl

theorem decode_setConfig (c : Configuration) (fa fb : Flt) :
    decode (.cmd (0x40000000 ||| (packCfg6 c).zeroExtend 32) fa fb) = .ok (.setConfig c) := by
  rw [show (0x40000000 : CmdWord) = cmdWord 4#4 0#16 from rfl, or_packCfg6]
  simp [decode, decodeCmd, withImm_setWidth, extractLsb'_setWidth_imm]

end Sys2Proof

namespace Sys2Proof.Machine

/-! ## A write that ends an operation
SETCONFIG and BEGIN answer OK as soon as their configuration write succeeds. -/

theorem cfgWr_respond_ok {b : Byte} {s : State} {es : List Event} {d0 d1 : Byte}
    (h : s.upcoming es.length = .answer (.ok d0 d1)) (hend : s.undisturbed (es.length + 1)) :
    (cfgWr b (s.during es) fun u => u.respond .ok .none) = s.ended .ok .none (es ++ [wrote b]) [] (es.length + 1) := by
  have hlength : (es ++ [wrote b]).length = es.length + 1 := List.length_append
  rw [cfgWr_during_ok h, during_respond _ _ (hlength ▸ hend), hlength]

/-- An answer OK is that of an operation that no reset has ended. -/
theorem respond_eq_of_ok {s : State} {st : Status} {r r' : Result} (h : (s.respond st r).resp = some ⟨.ok, r'⟩) :
    s.respond st r = { s with resp := some ⟨st, r⟩ } := by
  rcases respond_cases s st r with ⟨-, heq⟩ | ⟨-, heq⟩
  · exact heq
  · rw [heq] at h
    cases h

/-- An operation of one write that answers OK has had its answer, and no reset came. -/
theorem cfgWr_respond_eq_of_ok {b : Byte} {s : State} {r : Result} :
    (cfgWr b (s.during []) fun u => u.respond .ok .none).resp = some ⟨.ok, r⟩ →
      (cfgWr b (s.during []) fun u => u.respond .ok .none) = s.ended .ok .none [wrote b] [] 1 :=
  transact_cases (P := fun t => t.resp = some ⟨.ok, r⟩ → t = s.ended .ok .none [wrote b] [] 1) _ _ _
    (hok := fun _ _ _ h => by
      rw [during_popDraw_record] at h ⊢
      exact respond_eq_of_ok h)
    (herr := fun _ _ h => absurd h (respond_resp_ne_ok _ _ _ nofun))
    (hsilent := nofun)
    (hinside := nofun)
    (hbefore := nofun)

/-! ## GETCONFIG (R145) -/

theorem exec_getConfig_of_up {s : State} (hup : s.life = .up) :
    exec .getConfig s = .next (cfgRd (s.during []) fun cb u => u.respond .ok (.config (decodeConfig cb))) :=
  congrArg Host.Outcome.next (needUp_during hup)

/-- Settles O28: the one event is the read, and the response carries the decoding of its byte. -/
theorem getConfigAnswersTheChipsByte : Obligations.GetConfigAnswersTheChipsByte := by
  refine ⟨fun _ _ => rfl, fun s => ⟨fun hlife hend => ?_, fun hup hend => ⟨fun cb x hread => ?_,
    fun e hseq htmr herr => ?_⟩⟩⟩
  · exact operationsNotAdmittedChangeNothing _ s (.inl ⟨rfl, hlife⟩) hend
  · rw [exec_getConfig_of_up hup, cfgRd_during_ok hread, during_respond _ _ hend]
    rfl
  · rw [exec_getConfig_of_up hup, cfgRd_during_err (es := []) hseq htmr herr hend]
    rfl

/-! ## SETCONFIG (R144) -/

/-- CFG is new before the write is issued. -/
theorem exec_setConfig_of_up {s : State} (hup : s.life = .up) (c : Configuration) :
    exec (.setConfig c) s = .next (cfgWr (encodeConfig c) (State.during { s with cfg := c } []) fun u =>
      u.respond .ok .none) :=
  congrArg Host.Outcome.next (needUp_of_up hup)

/-- The response OK says that SETCONFIG was admitted and what it leaves. -/
theorem exec_setConfig_eq_of_ok {c : Configuration} {s t : State} {r : Result} (ht : exec (.setConfig c) s = .next t)
    (hresp : t.resp = some ⟨.ok, r⟩) :
    t = State.ended { s with cfg := c } .ok .none [wrote (encodeConfig c)] [] 1 := by
  cases ht
  by_cases hup : s.life = .up
  · rw [needUp_of_up hup] at hresp ⊢
    exact cfgWr_respond_eq_of_ok (s := { s with cfg := c }) hresp
  · rw [needUp_of_not_up hup] at hresp
    exact absurd hresp (respond_resp_ne_ok _ _ _ nofun)

/-- Settles O27: the response OK fixes the whole next state, so a second SETCONFIG leaves what the first left. -/
theorem setConfigWritesRegisterThenChip : Obligations.SetConfigWritesRegisterThenChip := by
  refine fun c => ⟨decode_setConfig c, fun s => ⟨fun hlife hend => ?_, fun hup hend => ⟨fun x y hwrite => ?_,
    fun e hseq htmr herr => ?_⟩⟩, fun s t u ht htresp hu huresp => ?_⟩
  · exact operationsNotAdmittedChangeNothing _ s (.inl ⟨rfl, hlife⟩) hend
  · exact (exec_setConfig_of_up hup c).trans
      (congrArg _ (cfgWr_respond_ok (s := { s with cfg := c }) (es := []) hwrite hend))
  · exact (exec_setConfig_of_up hup c).trans
      (congrArg _ (cfgWr_during_err (s := { s with cfg := c }) (es := []) hseq htmr herr hend))
  · rw [exec_setConfig_eq_of_ok hu huresp, exec_setConfig_eq_of_ok ht htresp]
    exact ⟨rfl, rfl⟩

/-! ## END (R143) -/

/-- What the history says of a release that met this input. -/
def Draw.releaseOutcome : Draw → BusOutcome
  | .answer (.ok _ _) => .ok []
  | .answer (.err e) => .err e
  | .silent | .reset _ => .unanswered

/-- Whatever the release answers, the operation goes on (R141). -/
theorem busRelease_of_not_reset {s : State} (k : State → State) (h : s.draw.isReset = false) :
    busRelease s k = k (s.popDraw.record (.release s.draw.releaseOutcome)) := by
  unfold busRelease
  rcases hdraw : s.draw with (_ | _) | _ | t
  · rfl
  · rfl
  · rfl
  · rw [hdraw] at h
    cases h

theorem tornDown_during {s : State} {es : List Event} (hend : s.undisturbed es.length) :
    tornDown (s.during es) = State.ended { s with life := .down } .ok .none es [] es.length := by
  have hupcoming : State.upcoming { s with life := .down } es.length = s.upcoming es.length :=
    upcoming_congr _ rfl rfl rfl
  exact during_respond (s := { s with life := .down }) .ok .none ((congrArg Draw.endsOperation hupcoming).trans hend)

theorem exec_endOp_of_not_up {s : State} (hlife : s.life ≠ .up) (hend : s.undisturbed 0) :
    exec .endOp s = .next (State.ended { s with life := .down } .ok .none [] [] 0) :=
  congrArg Host.Outcome.next ((if_neg hlife).trans (tornDown_during (es := []) hend))

theorem exec_endOp_of_up {s : State} (hup : s.life = .up) (hrelease : (s.upcoming 0).isReset = false)
    (hend : s.undisturbed 1) :
    exec .endOp s =
      .next (State.ended { s with life := .down } .ok .none [.release (s.upcoming 0).releaseOutcome] [] 1) := by
  have hgo : busRelease (s.during []) tornDown = tornDown (s.during [.release (s.upcoming 0).releaseOutcome]) := by
    rw [busRelease_of_not_reset _ ((congrArg Draw.isReset (during_draw s [])).trans hrelease),
      during_popDraw_record, during_draw]
    rfl
  exact congrArg Host.Outcome.next ((if_pos hup).trans (hgo.trans (tornDown_during hend)))

/-- Settles O26: the release is the one event from Up, and END goes on after it whatever it answers. -/
theorem endTearsDownFromEveryState : Obligations.EndTearsDownFromEveryState := by
  refine ⟨fun _ _ => rfl, fun s => ⟨exec_endOp_of_not_up, fun hup hend => ⟨fun r hanswer => ?_,
    fun hsilent => ?_⟩⟩⟩
  · rw [exec_endOp_of_up hup (hanswer ▸ rfl) hend, hanswer]
    cases r <;> rfl
  · rw [exec_endOp_of_up hup (hsilent ▸ rfl) hend, hsilent]
    rfl

/-! ## BEGIN (R142) -/

theorem exec_beginOp_of_down {s : State} (hdown : s.life = .down) (c : Configuration) (rref rnom : Flt) :
    exec (.beginOp c rref rnom) s = .next (busAcquire (s.during []) fun u =>
      cfgWr (encodeConfig c) (u.bringUp c rref rnom) fun v => v.respond .ok .none) :=
  congrArg Host.Outcome.next (needDown_of_down hdown)

/-- Once the bus is acquired, BEGIN goes on as an operation that began with its registers written (R142). -/
theorem exec_beginOp_acquired {s : State} {d0 d1 : Byte} (hdown : s.life = .down)
    (hacquire : s.upcoming 0 = .answer (.ok d0 d1)) (c : Configuration) (rref rnom : Flt) :
    exec (.beginOp c rref rnom) s = .next (cfgWr (encodeConfig c)
      ((s.bringUp c rref rnom).during [.acquire (.ok [])]) fun v => v.respond .ok .none) := by
  rw [exec_beginOp_of_down hdown, busAcquire_ok ((during_draw s []).trans hacquire), during_popDraw_record]
  rfl

/-- A failed acquire ends the operation with LIFE Dead (R140, R152). -/
theorem busAcquire_during_err {s : State} {k : State → State} {e : ErrVal} (hseq : s.seq = .idle) (htmr : s.tmr = 0)
    (h : s.upcoming 0 = .answer (.err e)) (hend : s.undisturbed 1) :
    busAcquire (s.during []) k =
      State.ended { s with life := .dead } .busInitError (.error e) [.acquire (.err e)] [] 1 := by
  rw [busAcquire_err ((during_draw s []).trans h), during_popDraw_record]
  exact during_abort (s := { s with life := .dead }) .busInitError e hseq htmr hend

/-- Settles O25: refused, not acquired, and after the acquire the two answers of the write. -/
theorem beginBringsUp : Obligations.BeginBringsUp := by
  refine fun c rref rnom => ⟨decode_beginOp c rref rnom, fun s => ⟨fun hlife hend => ?_, fun hdown =>
    ⟨fun x y z w hacquire hwrite hend => ?_, fun e hseq htmr herr hend => ?_,
      fun x y e hseq htmr hacquire herr hend => ?_⟩⟩⟩
  · exact operationsNotAdmittedChangeNothing _ s (.inr ⟨⟨c, rref, rnom, rfl⟩, hlife⟩) hend
  · exact (exec_beginOp_acquired hdown hacquire c rref rnom).trans
      (congrArg _ (cfgWr_respond_ok (s := s.bringUp c rref rnom) (es := [.acquire (.ok [])]) hwrite hend))
  · rw [exec_beginOp_of_down hdown, busAcquire_during_err hseq htmr herr hend]
  · exact (exec_beginOp_acquired hdown hacquire c rref rnom).trans
      (congrArg _ (cfgWr_during_err (s := s.bringUp c rref rnom) (es := [.acquire (.ok [])]) hseq htmr herr hend))

end Sys2Proof.Machine

/-! PROOF. Family 60_exceptions: an instruction ends without an error, or with one that its last event raises; from it
the place of an error in the history (O33) and the registers that it leaves (O34). -/

namespace Sys2Proof.Machine

/-! ## How an error is raised (R154) -/

/-- An event that has been answered, where it asks for an answer, and at which no operation aborts. -/
def Event.Completed (ev : Event) : Prop :=
  ev ≠ .acquire .unanswered ∧ (∀ r, ev ≠ .txn r .unanswered) ∧ ev.failedWith = none

theorem Event.Completed.failedWith {ev : Event} (h : ev.Completed) : ev.failedWith = none := by
  obtain ⟨-, -, hnone⟩ := h
  exact hnone

/-- The events at which an operation aborts, each with the status and the error value of its response (R151, R152). -/
inductive Event.Raises : Event → Status → ErrVal → Prop
  | txn (r : Request) (e : ErrVal) : Raises (.txn r (.err e)) .transportError e
  | acquire (e : ErrVal) : Raises (.acquire (.err e)) .busInitError e

theorem Event.Raises.failedWith {ev : Event} {st : Status} {e : ErrVal} (h : ev.Raises st e) :
    ev.failedWith = some e := by
  cases h <;> rfl

/-- CFG, RREF, RNOM and LIFE after an error of status `st`, where `i` was accepted in `s` (R142, R144, R155). -/
def State.heldAfterError (s : State) : Instr → Status → Configuration × Flt × Flt × Life
  | .setConfig c, _ => (c, s.rref, s.rnom, s.life)
  | .beginOp _ _ _, .busInitError => (s.cfg, s.rref, s.rnom, .dead)
  | .beginOp c x y, _ => (c, x, y, .up)
  | _, _ => s.held

/-- No event has failed, and no error stands on the response port. -/
def Errorless (t : State) : Prop :=
  (∀ ev ∈ t.events, ev.failedWith = none) ∧ ∀ st e, t.resp ≠ some ⟨st, .error e⟩

/-- The instruction `i`, accepted in `s`, has ended in `t`: without an error, or with the one that the last event of
`w` raises, after events that have completed. -/
inductive Concludes (i : Instr) (s : State) : State → Prop
  | errorless {t : State} (h : Errorless t) : Concludes i s t
  | raised {w : State} {es : List Event} {ev : Event} {st : Status} {e : ErrVal}
      (hevents : w.events = es ++ [ev]) (hdone : ∀ ev' ∈ es, ev'.Completed) (hraises : ev.Raises st e)
      (hpending : w.pending = s.pending) (hheld : w.held = s.heldAfterError i st) :
      Concludes i s (w.abort st e)

/-- An operation accepted in `s` is in progress and holds `v` in the four registers: its events have completed, and no
response stands. -/
def Underway (s : State) (v : Configuration × Flt × Flt × Life) (u : State) : Prop :=
  (∀ ev ∈ u.events, ev.Completed) ∧ u.resp = none ∧ u.pending = s.pending ∧ u.held = v

/-! ### What an operation in progress comes to -/

theorem Errorless.record {t : State} (h : Errorless t) {ev : Event} (hev : ev.failedWith = none) :
    Errorless (t.record ev) :=
  ⟨List.forall_mem_append.2 ⟨h.1, List.forall_mem_singleton.2 hev⟩, h.2⟩

/-- A reset ends an operation without an error. -/
theorem Errorless.cutShort {u : State} (h : Errorless u) : Errorless u.cutShort := ⟨h.1, nofun⟩

/-- A response that carries no error value ends it without an error. -/
theorem Errorless.respond {u : State} (h : Errorless u) (st : Status) {r : Result}
    (hr : ∀ e, r ≠ .error e) : Errorless (u.respond st r) := by
  rcases respond_cases u st r with ⟨-, heq⟩ | ⟨-, heq⟩ <;> rw [heq]
  · refine ⟨h.1, fun _ e hresp => hr e ?_⟩
    cases hresp
    rfl
  · exact h.cutShort

/-- What a row that is no command delivers is no error. -/
theorem Errorless.deliver {u : State} (h : Errorless u) (m : MicroOut) : Errorless (u.deliver m) := h

section Underway

variable {s u : State} {v : Configuration × Flt × Flt × Life}

theorem underway_startOp (s : State) : Underway s s.held s.startOp := ⟨nofun, rfl, rfl, rfl⟩

theorem Underway.record (hu : Underway s v u) {ev : Event} (hev : ev.Completed) : Underway s v (u.record ev) := by
  obtain ⟨hdone, hrest⟩ := hu
  exact ⟨List.forall_mem_append.2 ⟨hdone, List.forall_mem_singleton.2 hev⟩, hrest⟩

theorem Underway.after (hu : Underway s v u) (x : PlanStep) : Underway s v (x.after u) := by
  cases x with
  | enter q => exact hu
  | request r => exact hu.record (u := u.popDraw) (ev := .txn r (.ok _)) ⟨nofun, nofun, rfl⟩
  | wait d => exact hu.record (ev := .delay d) ⟨nofun, nofun, rfl⟩

theorem Underway.afterPlan (hu : Underway s v u) (p : List PlanStep) : Underway s v (afterPlan p u) := by
  induction p generalizing u with
  | nil => exact hu
  | cons x p ih => exact ih (hu.after x)

theorem Underway.errorless (hu : Underway s v u) : Errorless u := by
  obtain ⟨hdone, hresp, -⟩ := hu
  exact ⟨fun ev hev => (hdone ev hev).failedWith, fun _ _ h => nomatch hresp.symm.trans h⟩

end Underway

/-! ### The shared operations -/

section Concludes

variable {i : Instr} {s u : State} {v : Configuration × Flt × Flt × Life}

theorem Stops.concludes {x : PlanStep} {t : State} (h : Stops x u t)
    (hu : Underway s (s.heldAfterError i .transportError) u) : Concludes i s t := by
  cases h with
  | failed =>
    obtain ⟨hdone, -, hpending, hheld⟩ := hu
    exact .raised rfl hdone (.txn _ _) hpending hheld
  | unanswered => exact .errorless (hu.errorless.record rfl)
  | cutRequest | cutWait => exact .errorless (hu.errorless.cutShort.record rfl)
  | cutBefore => exact .errorless hu.errorless.cutShort

theorem runPlan_concludes (hu : Underway s (s.heldAfterError i .transportError) u) (p : List PlanStep)
    {k : State → State}
    (hk : ∀ w, Underway s (s.heldAfterError i .transportError) w → Concludes i s (k w)) :
    Concludes i s (runPlan p u k) := by
  rcases runPlan_cases p u with ⟨-, hgo⟩ | ⟨p₁, x, p₂, t, -, -, ht, hstop⟩
  · rw [hgo]
    exact hk _ (hu.afterPlan p)
  · rw [hstop]
    exact ht.concludes (hu.afterPlan p₁)

theorem transact_concludes (hu : Underway s (s.heldAfterError i .transportError) u) {r : Request}
    {k : Byte → Byte → State → State}
    (hk : ∀ d0 d1 w, Underway s (s.heldAfterError i .transportError) w → Concludes i s (k d0 d1 w)) :
    Concludes i s (transact r u k) := by
  rw [transact_bytes]
  exact runPlan_concludes hu [.request r] (hk _ _)

theorem acquireRatio_concludes (hu : Underway s (s.heldAfterError i .transportError) u)
    {k : Ratio → State → State}
    (hk : ∀ ratio w, Underway s (s.heldAfterError i .transportError) w → Concludes i s (k ratio w)) :
    Concludes i s (acquireRatio u k) := by
  rw [acquireRatio_eq_runPlan]
  exact runPlan_concludes hu _ (hk _)

/-- A failed acquire makes LIFE Dead (R152). -/
theorem busAcquire_concludes (hu : Underway s v u) {k : State → State}
    (hdead : s.heldAfterError i .busInitError = State.held { u with life := .dead })
    (hk : ∀ w, Underway s v w → Concludes i s (k w)) : Concludes i s (busAcquire u k) := by
  have ⟨hdone, _, hpending, _⟩ := hu
  exact busAcquire_cases u k
    (hok := hk _ (hu.record (u := u.popDraw) ⟨nofun, nofun, rfl⟩))
    (herr := fun e _ => .raised rfl hdone (.acquire e) hpending hdead.symm)
    (hsilent := .errorless (hu.errorless.record rfl))
    (hinside := .errorless (hu.errorless.cutShort.record rfl))
    (hbefore := .errorless hu.errorless.cutShort)

/-- A release raises no error, whatever it answers (R141). -/
theorem busRelease_concludes (hu : Underway s v u) {k : State → State}
    (hk : ∀ w, Underway s v w → Concludes i s (k w)) : Concludes i s (busRelease u k) :=
  busRelease_cases u k
    (hgo := fun _ _ => hk _ (hu.record (u := u.popDraw) ⟨nofun, nofun, rfl⟩))
    (hinside := .errorless (hu.errorless.cutShort.record rfl))
    (hbefore := .errorless hu.errorless.cutShort)

end Concludes

/-! ### The instructions -/

/-- Every instruction ends without an error, or with one that its last event raises. -/
theorem exec_concludes (i : Instr) (s : State) : Leaves i s (Concludes i s) := by
  have hs : Underway s s.held s.startOp := underway_startOp s
  have hanswer {u : State} (hu : Errorless u) (st : Status) {r : Result}
      (hr : ∀ e, r ≠ .error e := by nofun) : Concludes i s (u.respond st r) := .errorless (hu.respond st hr)
  have hrefuse : Concludes i s (s.startOp.respond .notReady .none) := hanswer hs.errorless _
  cases i with
  | encode | decode | solve | resist | cvd | poly | reservedE | reservedF =>
    exact ⟨_, rfl, hanswer hs.errorless _⟩
  | cfgByteEncode | cfgByteDecode | raw16 => exact ⟨_, rfl, .errorless hs.errorless⟩
  | beginOp c x y =>
    refine ⟨_, rfl, needDown_cases s _ (fun _ => busAcquire_concludes hs rfl fun u hu => ?_) fun _ => hrefuse⟩
    obtain ⟨hdone, hresp, hpending, -⟩ := hu
    have hup : Underway s (c, x, y, .up) (u.bringUp c x y) := ⟨hdone, hresp, hpending, rfl⟩
    exact transact_concludes hup fun _ _ _ hw => hanswer hw.errorless _
  | endOp =>
    have htorn (u : State) (hu : Underway s s.held u) : Concludes .endOp s (tornDown u) :=
      hanswer (u := { u with life := .down }) hu.errorless _
    refine ⟨_, rfl, ?_⟩
    split
    · exact busRelease_concludes hs htorn
    · exact htorn _ hs
  | setConfig c =>
    have hset : Underway s (c, s.rref, s.rnom, s.life) { s.startOp with cfg := c } := ⟨nofun, rfl, rfl, rfl⟩
    exact ⟨_, rfl, needUp_cases s _ (fun _ => transact_concludes hset fun _ _ _ hw =>
      hanswer hw.errorless _) fun _ => hrefuse⟩
  | getConfig | readFault =>
    exact ⟨_, rfl, needUp_cases s _ (fun _ => transact_concludes hs fun _ _ _ hw =>
      hanswer hw.errorless _) fun _ => hrefuse⟩
  | clearFault =>
    exact ⟨_, rfl, needUp_cases s _ (fun _ => transact_concludes hs fun _ _ _ hv =>
      transact_concludes hv fun _ _ _ hw => hanswer hw.errorless _) fun _ => hrefuse⟩
  | getRaw | getTemp =>
    exact ⟨_, rfl, needUp_cases s _ (fun _ => acquireRatio_concludes hs fun _ _ hw =>
      hanswer hw.errorless _) fun _ => hrefuse⟩
  | cfgWr | cfgRd | rtdRd | faultRd =>
    exact ⟨_, rfl, transact_concludes hs fun _ _ _ hw => .errorless (hw.errorless.deliver _)⟩

/-! ## An error is the last event (R154) -/

/-- Of events of which all but the last have completed, only the last can have failed. -/
theorem eq_last_of_failedWith {es before after : List Event} {last ev : Event} {e : ErrVal}
    (hdone : ∀ ev' ∈ es, ev'.Completed) (hsplit : es ++ [last] = before ++ ev :: after)
    (hfailed : ev.failedWith = some e) : after = [] ∧ before = es ∧ ev = last := by
  rcases List.eq_nil_or_concat' after with rfl | ⟨mid, x, rfl⟩
  · obtain ⟨rfl, hlast⟩ := List.append_inj' hsplit rfl
    exact ⟨rfl, rfl, (List.singleton_inj.1 hlast).symm⟩
  · have hes : es = before ++ ev :: mid := by
      rw [← List.cons_append, ← List.append_assoc] at hsplit
      exact (List.append_inj' hsplit rfl).1
    have hnone := (hdone ev (by simp [hes])).failedWith
    cases hnone.symm.trans hfailed

/-- Everything an abort can do. -/
theorem abort_cases (w : State) (st : Status) (e : ErrVal) :
    w.abort st e = { w with seq := .idle, tmr := 0, resp := some ⟨st, .error e⟩ } ∨
      w.abort st e = w.cutShort :=
  (respond_cases { w with seq := .idle, tmr := 0 } st (.error e)).imp And.right And.right

/-- An error has its response, unless a reset comes before it. -/
theorem abort_resp_of_not_reset {w : State} {st : Status} {e : ErrVal} (h : (w.abort st e).resetPin = false) :
    (w.abort st e).resp = some ⟨st, .error e⟩ := by
  rcases abort_cases w st e with heq | heq
  · rw [heq]
  · rw [heq] at h
    cases h

/-- A response with an error value is that of the error raised, and STATE is Idle and TMR 0 (R155). -/
theorem abort_eq_of_resp {w : State} {st st' : Status} {e e' : ErrVal}
    (h : (w.abort st e).resp = some ⟨st', .error e'⟩) :
    st = st' ∧ e = e' ∧ w.abort st e = { w with seq := .idle, tmr := 0, resp := some ⟨st, .error e⟩ } := by
  rcases abort_cases w st e with heq | heq <;> rw [heq] at h <;> cases h
  exact ⟨rfl, rfl, heq⟩

/-- Settles O33, by how the instruction concludes: only where it raises an error has an event failed. -/
theorem anErrorIsTheLastEvent : Obligations.AnErrorIsTheLastEvent := by
  intro i s t ht
  cases (exec_concludes i s).of_exec ht with
  | errorless h =>
    obtain ⟨hevents, hresp⟩ := h
    refine ⟨fun before ev after e hsplit hfailed => ?_, fun st e h => absurd h (hresp st e)⟩
    cases (hevents ev (by simp [hsplit])).symm.trans hfailed
  | @raised w es ev₀ st₀ e₀ hw hdone hraises =>
    refine ⟨fun before ev after e hsplit hfailed => ?_, fun st e h => ?_⟩
    · rw [abort_events, hw] at hsplit
      obtain ⟨rfl, rfl, rfl⟩ := eq_last_of_failedWith hdone hsplit hfailed
      refine ⟨rfl, fun ev' hev' => ?_, fun hpin => ?_⟩
      · obtain ⟨hacquire, htxn, hnone⟩ := hdone ev' hev'
        exact ⟨hacquire, fun r => ⟨htxn r, hnone⟩⟩
      · cases hraises.failedWith.symm.trans hfailed
        rw [abort_resp_of_not_reset hpin]
        cases hraises <;> rfl
    · obtain ⟨-, rfl, -⟩ := abort_eq_of_resp h
      exact ⟨es, ev₀, (abort_events w st₀ e₀).trans hw, hraises.failedWith⟩

/-! ## The registers after an error (R155) -/

/-- The registers are the four that hold, with STATE and TMR. -/
theorem registers_eq_of_held {s : State} {c : Configuration} {x y : Flt} {l : Life} (h : s.held = (c, x, y, l)) :
    s.registers = (c, x, y, l, s.seq, s.tmr) := by
  cases h
  rfl

/-- Settles O34, by how the instruction concludes: it has raised the error of the response. -/
theorem stateAfterAnError : Obligations.StateAfterAnError := by
  intro i s t st e ht hresp
  cases (exec_concludes i s).of_exec ht with
  | errorless h => exact absurd hresp (h.2 st e)
  | @raised w es ev st₀ e₀ _ _ hraises hpending hheld =>
    obtain ⟨rfl, rfl, heq⟩ := abort_eq_of_resp hresp
    rw [heq]
    refine ⟨fun hnone => (cmdReady_iff _).2 ⟨rfl, hpending.trans hnone⟩, ?_⟩
    cases i with
    | beginOp => cases hraises <;> exact registers_eq_of_held hheld
    | _ => exact registers_eq_of_held hheld

end Sys2Proof.Machine

/-! PROOF. Family 70_reset_and_hazards: what the reset input does between operations and while an answer is
outstanding (O38), and in what state it leaves the block where it ends an operation (O58). -/

namespace Sys2Proof.Machine

/-! ## The reset input at a step (R170) -/

/-- An asserted reset input is released. -/
theorem step_of_resetPin {s : State} (hpin : s.resetPin = true) : step s = .next s.releaseReset := by
  simp [step, hpin]

/-- A reset that is due is asserted. -/
theorem step_of_resetDue {s : State} (hpin : s.resetPin = false) (hdue : s.resetDue = true) :
    step s = .next s.cutShort := by
  simp [step, hpin, hdue]

/-- Settles O38: the step is the assertion of the reset input, or its release. -/
theorem resetInputEndsTheOperation : Obligations.ResetInputEndsTheOperation :=
  ⟨fun _ hpin hdue => ⟨_, step_of_resetDue hpin hdue, rfl, rfl, rfl, rfl, rfl, rfl, rfl, rfl, rfl⟩,
    fun _ hpin => ⟨_, step_of_resetPin hpin, rfl, rfl, rfl, rfl, rfl, rfl, rfl, rfl, rfl⟩⟩

/-! ## An operation that a reset ends (R170, R20)

While an instruction runs the reset input is released, and no operation shared by the instructions asserts it but
through `State.cutShort`. -/

/-- Where the reset input is asserted, the block is in reset. -/
def ResetIfAsserted (t : State) : Prop := t.resetPin = true → t.AtReset

theorem resetIfAsserted_of_released {t : State} (hpin : t.resetPin = false) : ResetIfAsserted t :=
  fun h => absurd h (Bool.eq_false_iff.1 hpin)

theorem resetIfAsserted_cutShort (s : State) : ResetIfAsserted s.cutShort := fun _ => cutShort_atReset s

/-- A response leaves the reset input released, unless a reset comes before it. -/
theorem resetIfAsserted_respond {s : State} (st : Status) (r : Result) (hpin : s.resetPin = false) :
    ResetIfAsserted (s.respond st r) := by
  rcases respond_cases s st r with ⟨-, h⟩ | ⟨-, h⟩ <;> rw [h]
  · exact resetIfAsserted_of_released hpin
  · exact resetIfAsserted_cutShort s

theorem resetIfAsserted_abort {s : State} (st : Status) (e : ErrVal) (hpin : s.resetPin = false) :
    ResetIfAsserted (s.abort st e) :=
  resetIfAsserted_respond (s := { s with seq := .idle, tmr := 0 }) st _ hpin

theorem released_carries : Carries (fun u => u.resetPin = false) ResetIfAsserted where
  event _ _ hpin := hpin
  delay _ _ hpin := hpin
  abort _ _ hpin := resetIfAsserted_abort _ _ hpin
  wait _ _ hpin := resetIfAsserted_of_released hpin
  cut s _ := resetIfAsserted_cutShort s
  cutInside s _ _ := resetIfAsserted_cutShort s

/-- Every instruction, a row that is no command included, leaves the block in reset if the reset input is asserted
when it is over. -/
theorem exec_resetIfAsserted (i : Instr) {s : State} (hpin : s.resetPin = false) : Leaves i s ResetIfAsserted := by
  have hs : s.startOp.resetPin = false := hpin
  have hrefuse : ResetIfAsserted (s.startOp.respond .notReady .none) := resetIfAsserted_respond _ _ hs
  rcases instr_kinds i with hi | hi | rfl | ⟨c, rfl⟩ | ⟨c, x, y, rfl⟩
  · exact exec_plain_carries released_carries (hrespond := fun _ _ _ => resetIfAsserted_respond _ _)
      (hdeliver := fun _ _ => resetIfAsserted_of_released) hi hs
  · exact exec_acquisition_carries (I := fun _ u => u.resetPin = false) (fun _ _ => released_carries)
      (henter := fun _ _ _ hu => hu) (hrespond := fun _ _ => resetIfAsserted_respond _ _)
      (hs := fun _ => hs) (hrefuse := fun _ => hrefuse) hi
  · have htorn (u : State) (hu : u.resetPin = false) : ResetIfAsserted (tornDown u) :=
      resetIfAsserted_respond (s := { u with life := .down }) _ _ hu
    refine ⟨_, rfl, ?_⟩
    split
    · exact busRelease_carries released_carries hs htorn
    · exact htorn _ hs
  · exact ⟨_, rfl, needUp_cases s _
      (fun _ => cfgWr_carries (s := { s.startOp with cfg := c }) released_carries hs
        fun _ => resetIfAsserted_respond _ _) fun _ => hrefuse⟩
  · exact ⟨_, rfl, needDown_cases s _
      (fun _ => busAcquire_carries released_carries hs
        (hk := fun u hu => cfgWr_carries (s := u.bringUp c x y) released_carries hu
          fun _ => resetIfAsserted_respond _ _)
        (hdead := fun u _ hu => resetIfAsserted_abort (s := { u with life := .dead }) _ _ hu)
        (hwait := fun _ hu => resetIfAsserted_of_released hu)) fun _ => hrefuse⟩

/-- Settles O58: the operation leaves the block in reset, and the step that follows releases the reset input. -/
theorem resetOperationHasNoResponse : Obligations.ResetOperationHasNoResponse := fun i _ t _ hpin ht hreset =>
  ⟨(exec_resetIfAsserted i hpin).of_exec ht hreset,
    t.releaseReset, step_of_resetPin hreset, releaseReset_atReset t, rfl, rfl⟩

end Sys2Proof.Machine
